-- ==== Sys2Proof/Word.lean ====
section
/-!
DEFINITION. The unsigned words of the block (spec/00_scope.md rule R11 and section 5.1).
-/

namespace Sys2Proof

/-- `Byte`, 8 bits (rule R11). -/
abbrev Byte := BitVec 8

/-- `U16`: the checksum and every CRC value (rule R11). -/
abbrev U16 := BitVec 16

/-- `U32`: timestamps, identifiers, the two counters, the hardware identifier field (rule R11). -/
abbrev U32 := BitVec 32

end Sys2Proof
end

