-- ==== Sys2Proof/Config.lean ====
section
/-!
DEFINITION. The constants the source fixes (spec/00_scope.md rule R9), the parameters it leaves
without a value (rule R10), and the free values of the model (`draw(T)`, section 5.2).
-/

namespace Sys2Proof.Config

/-- First header byte, offset 0 of a control frame (rule R9). -/
abbrev hdr0 : Byte := 0xAA#8

/-- Second header byte, offset 1 of a control frame (rule R9). -/
abbrev hdr1 : Byte := 0x55#8

/-- Largest legal `dataLength` (rule R9). -/
abbrev maxData : Nat := 60

/-- `commandId` of a protocol-error response (rule R9). -/
abbrev errCmdId : Byte := 0xFF#8

/-- CRC initial value (rule R9). -/
abbrev crcInit : U16 := 0xFFFF#16

/-- CRC polynomial (rule R9). -/
abbrev crcPoly : U16 := 0x1021#16

/-- Length of the CAN record (rule R9). -/
abbrev canWireLen : Nat := 18

/-- Largest legal `CanMessage.length` (rule R9). -/
abbrev canMaxDlc : Nat := 8

/-- Largest identifier encoded as standard (rule R9). -/
abbrev stdIdMax : Nat := 0x7FF

/-- Left-alignment shift of a standard identifier (rule R9). -/
abbrev stdShift : Nat := 21

/-- Left-alignment shift of an extended identifier (rule R9). -/
abbrev extShift : Nat := 3

/-- Length of the control wire buffer. Rule R10 makes it a parameter whose value on this hardware
is 64: the codec's functions take it as an argument, the machine uses this value (log 7). -/
abbrev wireLen : Nat := 64

/-! ### Command ids (spec/30_encoding.md rule R92) -/

/-- READ. -/
abbrev cmdRead : Byte := 0x01#8
/-- WRITE. -/
abbrev cmdWrite : Byte := 0x02#8
/-- STATUS. -/
abbrev cmdStatus : Byte := 0x03#8
/-- RESET. -/
abbrev cmdReset : Byte := 0x04#8
/-- VERSION. -/
abbrev cmdVersion : Byte := 0x05#8
/-- ECHO_STRING. -/
abbrev cmdEchoString : Byte := 0x06#8

/-! ### Result codes (spec/30_encoding.md rule R95) -/

/-- `OK`. -/
abbrev rcOk : Byte := 0x00#8
/-- `ERROR`. -/
abbrev rcError : Byte := 0x01#8
/-- `INVALID_CMD`. -/
abbrev rcInvalidCmd : Byte := 0x02#8
/-- `CRC_ERROR`. -/
abbrev rcCrcError : Byte := 0x03#8

/-! ### Parameters without a value (rule R10, decisions D12 and D14): no body, so nothing in a
proof can depend on a value (log 9). -/

/-- `RC_BAD_HEADER`, any byte (rule R96). -/
opaque rcBadHeader : Byte

/-- `RC_BAD_LENGTH`, any byte (rule R96). -/
opaque rcBadLength : Byte

/-- `VER_MAJOR`, any byte (rule R182). -/
opaque verMajor : Byte

/-- `VER_MINOR`, any byte (rule R182). -/
opaque verMinor : Byte

/-- `VER_PATCH`, any byte (rule R182). -/
opaque verPatch : Byte

/-! ### Free values (log 6): the first argument is the number of the draw, which the step takes
from `State.draws` and advances. -/

/-- `draw(Byte)`: the byte the `n`-th draw gives at offset `off` of a buffer. -/
opaque drawByte (n off : Nat) : Byte

/-- Whether the `n`-th coincident push and take is served push first (spec/20_memory.md rule R67:
"the spec does not say which, and a model admits both"). -/
opaque drawPushFirst (n : Nat) : Bool

end Sys2Proof.Config
end

