-- ==== Sys2Proof/Syntax.lean ====
section
/-!
DEFINITION. The record types of spec/10_state.md section 5, the operations of spec/00_scope.md rule
R8 and the control-frame rows of spec/30_encoding.md rule R111 as one inductive `Instr`, and the
forms in which they are issued (rule R110) and answered.
-/

namespace Sys2Proof

/-! ### Records (rules R31 to R33) -/

/-- Rule R31. The region `data` always has 60 bytes; those from index `dataLength` on take no part
in `≈`. -/
structure Packet where
  header : Byte × Byte
  commandId : Byte
  dataLength : Byte
  data : Vector Byte 60
  checksum : U16
deriving DecidableEq, Repr

/-- Rule R32. `data` is 8 bytes of which the first `length` are meaningful; bit 0 of `properties` is
the identifier-extended flag. -/
structure CanMessage where
  timestamp : U32
  id : U32
  data : Vector Byte 8
  length : Byte
  properties : Byte
deriving DecidableEq, Repr

/-- Rule R33. The extension flag `ide` is no bit of `idField` (spec/30_encoding.md rule R101). -/
structure HwFrame where
  idField : U32
  ide : Bool
  dlc : Byte
  data : Vector Byte 8
deriving DecidableEq, Repr

/-! ### Errors (rules R34 and R261) and results -/

/-- The error of PKT.DECODE (rule R34). -/
inductive DecodeError
  | malformedLength
deriving DecidableEq, Repr

/-- The errors of PKT.VALIDATE (rule R34); they are also the kinds of a protocol-level error. -/
inductive ValidationError
  | badHeader
  | badLength
  | crcMismatch
deriving DecidableEq, Repr

/-- The closed taxonomy of spec/60_exceptions.md rule R261. -/
inductive ErrorKind
  | badLength
  | badHeader
  | crcMismatch
  | invalidCommand
  | missingPayload
deriving DecidableEq, Repr

/-- Result of PKT.DECODE. -/
inductive DecodeResult
  | ok (p : Packet)
  | err (e : DecodeError)
deriving DecidableEq, Repr

/-- Result of PKT.VALIDATE. -/
inductive ValidateResult
  | ok
  | err (e : ValidationError)
deriving DecidableEq, Repr

/-- What an operation answers (the result column of the operation rules; spec/70_reset_and_hazards.md
rule R305: the results are what an observer sees). -/
inductive Result
  /-- CRC16 (rule R120). -/
  | crc (c : U16)
  /-- PKT.ENCODE (rule R141). -/
  | wire (wb : List Byte)
  /-- PKT.DECODE (rule R146). -/
  | decoded (r : DecodeResult)
  /-- PKT.VALIDATE (rule R151). -/
  | validated (r : ValidateResult)
  /-- PKT.BUILD_RESPONSE and CMD.PROCESS (rules R156, R170). -/
  | packet (p : Packet)
  /-- CAN.TO_WIRE (rule R210). -/
  | record (cb : List Byte)
  /-- CAN.FROM_WIRE (rule R213): `Some` or `None`. -/
  | parsed (m : Option CanMessage)
  /-- RLY.TAKE (rule R245): `Some` or `None`. -/
  | taken (m : Option CanMessage)
  /-- CAN.ID_ENCODE (rule R217). -/
  | hwId (idField : U32) (ide : Bool)
  /-- CAN.ID_DECODE (rule R221). -/
  | rawId (id : U32)
  /-- CAN.TX_FRAME (rule R225). -/
  | frame (f : HwFrame)
  /-- CAN.RX_FRAME (rule R228). -/
  | received (m : CanMessage)
  /-- RLY.PUSH, which has no result (rule R240). -/
  | done
deriving DecidableEq, Repr

/-! ### The instructions -/

/-- One constructor per row of spec/opcode_table.json: the fourteen operations with their operands,
then the eight control-frame rows, a command row with its request payload (`REQ <mnemonic>
[payload]`, rule R115). The operand `n` of PKT.BUILD_RESPONSE is `d.length` (rule R156, log 15). -/
inductive Instr
  | crc16 (bytes : List Byte)
  | pktEncode (p : Packet)
  | pktDecode (wb : List Byte)
  | pktValidate (p : Packet)
  | pktBuildResponse (req : Option Packet) (cid : Byte) (d : List Byte)
  | cmdProcess (wb : List Byte)
  | canToWire (m : CanMessage)
  | canFromWire (bytes : List Byte) (len : Nat)
  | canIdEncode (id : U32)
  | canIdDecode (idField : U32) (ide : Bool)
  | canTxFrame (m : CanMessage)
  | canRxFrame (f : HwFrame)
  | rlyPush (m : CanMessage)
  | rlyTake
  | read (payload : List Byte)
  | write (payload : List Byte)
  | status (payload : List Byte)
  | reset (payload : List Byte)
  | version (payload : List Byte)
  | echoString (payload : List Byte)
  | unknownCmd (cid : Byte) (payload : List Byte)
  | protocolErrorRsp (e : ValidationError)
deriving DecidableEq, Repr

/-! ### How an instruction is issued -/

/-- The two agents that issue operations (rule R35). ENV, the third, only resets: `Input.reset`. -/
inductive Agent
  | M
  | P
deriving DecidableEq, Repr

/-- The operands of an operation request, one shape per operand list of rule R8's table. The source
gives operations only as function signatures, so operands have no bit-level form (rule R110). -/
inductive Operands
  | bytes (bs : List Byte)
  | packet (p : Packet)
  | buffer (wb : List Byte)
  | response (req : Option Packet) (cid : Byte) (d : List Byte)
  | message (m : CanMessage)
  | record (bs : List Byte) (len : Nat)
  | rawId (id : U32)
  | hwId (idField : U32) (ide : Bool)
  | frame (f : HwFrame)
  | none
deriving DecidableEq, Repr

/-- What is decoded: an operation request, "the pair (`op_sel`, operands)" (rule R110), or an inbound
control frame (rule R80). -/
inductive Request
  | op (sel : BitVec 4) (operands : Operands)
  | frame (wb : List Byte)
deriving DecidableEq, Repr

/-- One element of the issued sequence, which is "an input of the model" (rule R21): operations of M
and P in their interleaving (spec/20_memory.md rule R66), the events of the bridge contract
(spec/60_exceptions.md rules R286 to R288), and the reset of ENV (rule R300). -/
inductive Input
  /-- Agent `a` issues the operation `sel` with its operands (rules R36, R110). -/
  | issue (a : Agent) (sel : BitVec 4) (operands : Operands)
  /-- `usb_read(control)` delivers a buffer (rule R286). -/
  | controlIn (wb : List Byte)
  /-- `usb_read(can)` delivers a buffer (rule R288). -/
  | canIn (bytes : List Byte)
  /-- The CAN controller delivers a frame to P (rules R265, R287). -/
  | frameArrival (f : HwFrame)
  /-- M polls the relay in its loop (rule R287). -/
  | relayPoll
  /-- M does the next operation of the bridge contract it is in: what stands before this element landed
  before that operation (spec/60_exceptions.md rule R266, log 14). -/
  | mainline
  /-- RLY.PUSH and RLY.TAKE, each a single operation, arrive at the same instant (rule R67; log 30). -/
  | coincidence (m : CanMessage)
  /-- ENV resets the block (rule R300). -/
  | reset
deriving DecidableEq, Repr

/-- What M still has to do in the bridge contract it is in (spec/60_exceptions.md rules R286 to R288):
between two of these P may issue its operations (rule R266). -/
inductive BridgeTask
  /-- R286: PKT.ENCODE of the response. -/
  | encodeResponse (r : Packet)
  /-- R286: `usb_write(control, wb)`. -/
  | writeControl (wb : List Byte)
  /-- R288: CAN.TX_FRAME of the message read. -/
  | buildFrame (m : CanMessage)
  /-- R288: `can_send(f)`. -/
  | sendFrame (f : HwFrame)
  /-- R287: CAN.TO_WIRE of the message taken. -/
  | serialise (m : CanMessage)
  /-- R287: `usb_write(can, cb)`. -/
  | writeCan (cb : List Byte)
deriving DecidableEq, Repr

/-! ### Values of zeros, the operands a table word has where it gives them no bits -/

/-- A Packet of zero bytes. -/
def Packet.zero : Packet :=
  { header := (0, 0), commandId := 0, dataLength := 0, data := Vector.replicate 60 0, checksum := 0 }

/-- A CanMessage of zero bytes. -/
def CanMessage.zero : CanMessage :=
  { timestamp := 0, id := 0, data := Vector.replicate 8 0, length := 0, properties := 0 }

/-- An HwFrame of zero bytes. -/
def HwFrame.zero : HwFrame :=
  { idField := 0, ide := false, dlc := 0, data := Vector.replicate 8 0 }

end Sys2Proof
end

