-- ==== Sys2Proof/Machine/Operands.lean ====
section
/-!
DEFINITION. Byte order (spec/20_memory.md rules R54 to R57), bounded access to operand buffers (rule
R59), and the byte forms of the two wire formats (spec/30_encoding.md rules R80, R97).
-/

namespace Sys2Proof.Machine

/-! ### Little-endian splitting and assembling (spec/00_scope.md section 5.1) -/

/-- `lo8(v) = v[7:0]`. -/
def lo8 (v : U16) : Byte := v.extractLsb' 0 8

/-- `hi8(v) = v[15:8]`. -/
def hi8 (v : U16) : Byte := v.extractLsb' 8 8

/-- `un_le16(b0, b1) = b0 + 256*b1`. -/
def unLe16 (b0 b1 : Byte) : U16 := BitVec.ofNat 16 (b0.toNat + 2 ^ 8 * b1.toNat)

/-- `le32(v)`: four bytes, least significant first. -/
def le32 (v : U32) : List Byte :=
  [v.extractLsb' 0 8, v.extractLsb' 8 8, v.extractLsb' 16 8, v.extractLsb' 24 8]

/-- `un_le32(b0, b1, b2, b3) = b0 + 2^8*b1 + 2^16*b2 + 2^24*b3`. -/
def unLe32 (b0 b1 b2 b3 : Byte) : U32 :=
  BitVec.ofNat 32 (b0.toNat + 2 ^ 8 * b1.toNat + 2 ^ 16 * b2.toNat + 2 ^ 24 * b3.toNat)

/-! ### Bounded reads -/

/-- A byte of a buffer that was delivered with `bs.length` bytes; a byte that was not delivered is a
draw (decision D43, log 8). -/
def byteAt (draw : Nat → Byte) (bs : List Byte) (off : Nat) : Byte := bs.getD off (draw off)

/-- `get(WB, off)` of spec/41_packet_codec.md rule R140: a read at or beyond `wl` is a draw. -/
def get (wl : Nat) (draw : Nat → Byte) (wb : List Byte) (off : Nat) : Byte :=
  if off < wl then byteAt draw wb off else draw off

/-! ### The control frame -/

end Sys2Proof.Machine

namespace Sys2Proof

/-- `data[0..dataLength)`. -/
def Packet.payload (p : Packet) : List Byte := p.data.toList.take p.dataLength.toNat

/-- `p ≈ q` (rule R31): equal but for the bytes of `data` from index `dataLength` on. -/
def Packet.Equiv (p q : Packet) : Prop :=
  p.header = q.header ∧ p.commandId = q.commandId ∧ p.dataLength = q.dataLength ∧
  p.checksum = q.checksum ∧ p.payload = q.payload

end Sys2Proof

namespace Sys2Proof.Machine

/-- `canon(p)` (rule R31): the bytes at offsets 0 to `3 + dataLength`, which the checksum covers
(rule R85). -/
def canon (p : Packet) : List Byte :=
  [p.header.1, p.header.2, p.commandId, p.dataLength] ++ p.payload

/-- The meaningful bytes of the frame, `6 + dataLength` of them: `canon(p)` and then the checksum, low
byte first (rules R80 to R82). -/
def frameImage (p : Packet) : List Byte := canon p ++ [lo8 p.checksum, hi8 p.checksum]

/-- The 60-byte region that holds `d` and zeros after it (decision D9). -/
def dataRegion (d : List Byte) : Vector Byte 60 := Vector.ofFn fun i => d.getD i.val 0

/-! ### The CAN record -/

/-- The eight data bytes of a CAN record, "zero-padded past `length`" (rule R97). With a `length` of 8
or more all eight are `m.data` (spec/43_can_translator.md rule R211). -/
def paddedData (m : CanMessage) : List Byte :=
  m.data.toList.take m.length.toNat ++ List.replicate (8 - m.length.toNat) 0

end Sys2Proof.Machine
end

