-- ==== Sys2Proof/Machine/Codec.lean ====
section
/-!
DEFINITION. The CRC16 Engine (spec/40_crc16.md) and the pure functions of the Packet Codec
(spec/41_packet_codec.md). `wl` is `WIRE_LEN`; `draw off` is the free value of a byte the spec does
not fix at offset `off`.
-/

namespace Sys2Proof.Machine

/-! ### CRC16 -/

/-- One of the eight shifts of `crc_step` (rule R121). -/
def crcShift (c : U16) : U16 :=
  if c.getLsbD 15 then (c <<< 1) ^^^ Config.crcPoly else c <<< 1

/-- `crc_step(c, b)` (rule R121): the byte enters at the high end, then eight shifts. -/
def crcStep (c : U16) (b : Byte) : U16 :=
  Nat.repeat crcShift 8 (c ^^^ (b.zeroExtend 16 <<< 8))

/-- `CRC16(bytes)` (rule R120): no final XOR, no reflection (rule R122). -/
def crc16 (bytes : List Byte) : U16 := bytes.foldl crcStep Config.crcInit

/-! ### Framing -/

/-- PKT.ENCODE (rule R141): the frame image, cut off at `wl` (rule R144: a byte that does not fit is
dropped), then a draw for every byte the frame leaves over (rule R143). The Packet's own header and
checksum are written as they stand (rule R142). -/
def encodePacket (wl : Nat) (draw : Nat → Byte) (p : Packet) : List Byte :=
  (frameImage p).take wl ++
    (List.range (wl - (frameImage p).length)).map fun k => draw ((frameImage p).length + k)

/-- PKT.DECODE (rule R146): the length is checked before any payload or checksum byte is read; the
payload region is zero from index `L` on (rule R149). -/
def decodePacket (wl : Nat) (draw : Nat → Byte) (wb : List Byte) : DecodeResult :=
  let len := get wl draw wb 3
  if Config.maxData < len.toNat then .err .malformedLength
  else .ok
    { header := (get wl draw wb 0, get wl draw wb 1)
      commandId := get wl draw wb 2
      dataLength := len
      data := dataRegion ((List.range len.toNat).map fun i => get wl draw wb (4 + i))
      checksum := unLe16 (get wl draw wb (4 + len.toNat)) (get wl draw wb (5 + len.toNat)) }

/-- PKT.VALIDATE (rule R151): three checks in this order, the first failure is the result (rule
R152). -/
def validatePacket (p : Packet) : ValidateResult :=
  if p.header.1 ≠ Config.hdr0 ∨ p.header.2 ≠ Config.hdr1 then .err .badHeader
  else if Config.maxData < p.dataLength.toNat then .err .badLength
  else if crc16 (canon p) ≠ p.checksum then .err .crcMismatch
  else .ok

/-- The Packet with a fresh checksum over its canonical form (rule R124). -/
def stampChecksum (p : Packet) : Packet := { p with checksum := crc16 (canon p) }

/-- PKT.BUILD_RESPONSE (rule R156) with `n = d.length`. The request operand has no effect (rule R157),
so it is no argument here. -/
def buildResponse (cid : Byte) (d : List Byte) : Packet :=
  stampChecksum
    { header := (Config.hdr0, Config.hdr1)
      commandId := cid
      dataLength := BitVec.ofNat 8 d.length
      data := dataRegion d
      checksum := 0 }

/-! ### Error kinds and codes -/

/-- The result code of each error kind (spec/30_encoding.md rules R95, R96; decision D13). -/
def resultCode : ErrorKind → Byte
  | .badLength => Config.rcBadLength
  | .badHeader => Config.rcBadHeader
  | .crcMismatch => Config.rcCrcError
  | .invalidCommand => Config.rcInvalidCmd
  | .missingPayload => Config.rcError

/-- The kind of a validation error in the taxonomy of spec/60_exceptions.md rule R261. -/
def kindOf : ValidationError → ErrorKind
  | .badHeader => .badHeader
  | .badLength => .badLength
  | .crcMismatch => .crcMismatch

end Sys2Proof.Machine
end

