-- ==== Sys2Proof/WellFormed.lean ====
section
/-!
DEFINITION. What makes an operand legal: the sizes the operation rules ask for. The meanings are
total all the same; this file only says which terms the spec describes.
-/

namespace Sys2Proof

/-- A Packet is well-sized: "Invariant: `dataLength ≤ 60`" (spec/10_state.md rule R31). -/
def Packet.wellSized (p : Packet) : Bool := decide (p.dataLength.toNat ≤ Config.maxData)

/-- A CanMessage is well-sized: "Invariant: `length ≤ 8`" (rule R32). -/
def CanMessage.wellSized (m : CanMessage) : Bool := decide (m.length.toNat ≤ Config.canMaxDlc)

/-- The six command ids (spec/30_encoding.md rule R92). -/
def isCommandId (cid : Byte) : Bool :=
  cid == Config.cmdRead || cid == Config.cmdWrite || cid == Config.cmdStatus ||
  cid == Config.cmdReset || cid == Config.cmdVersion || cid == Config.cmdEchoString

/-- A request payload fits a Packet (rule R31). -/
def payloadFits (payload : List Byte) : Bool := decide (payload.length ≤ Config.maxData)

/-- The legal instructions, by the operand column of each operation's rule. -/
def Instr.wellFormed : Instr → Bool
  | .crc16 _ => true
  | .pktEncode p => p.wellSized
  | .pktDecode wb => wb.length == Config.wireLen
  | .pktValidate _ => true
  | .pktBuildResponse _ _ d => payloadFits d
  | .cmdProcess wb => wb.length == Config.wireLen
  | .canToWire _ => true
  | .canFromWire bytes len => decide (len ≤ bytes.length)
  | .canIdEncode _ => true
  | .canIdDecode _ _ => true
  | .canTxFrame m => m.wellSized
  | .canRxFrame _ => true
  | .rlyPush _ => true
  | .rlyTake => true
  | .read payload => payloadFits payload
  | .write payload => payloadFits payload
  | .status payload => payloadFits payload
  | .reset payload => payloadFits payload
  | .version payload => payloadFits payload
  | .echoString payload => payloadFits payload
  | .unknownCmd cid payload => !isCommandId cid && payloadFits payload
  | .protocolErrorRsp _ => true

end Sys2Proof
end

