-- ==== Sys2Proof/Decode.lean ====
section
/-!
DEFINITION. The decoder: an operation request by its selector (spec/30_encoding.md rule R110), an
inbound control frame by PKT.DECODE, PKT.VALIDATE and its command id (rule R92); then the encoder; then
the words of spec/opcode_table.json.
-/

namespace Sys2Proof

open Sys2Proof.Machine

/-- Why a request is no instruction. -/
inductive Reject
  /-- `op_sel` 0xE and 0xF select no operation (rule R112). -/
  | noOperation
  /-- The operands are not those of the selected operation (rule R110). -/
  | operandShape
deriving DecidableEq, Repr

/-- What the decoder answers. -/
inductive Decoded
  | ok (i : Instr)
  | reject (r : Reject)
deriving DecidableEq, Repr

/-! ### Decoding -/

/-- An operation request: the selectors of spec/00_scope.md rule R8. -/
def decodeOp (sel : BitVec 4) (operands : Operands) : Decoded :=
  match sel.toNat, operands with
  | 0x0, .bytes bs => .ok (.crc16 bs)
  | 0x1, .packet p => .ok (.pktEncode p)
  | 0x2, .buffer wb => .ok (.pktDecode wb)
  | 0x3, .packet p => .ok (.pktValidate p)
  | 0x4, .response req cid d => .ok (.pktBuildResponse req cid d)
  | 0x5, .buffer wb => .ok (.cmdProcess wb)
  | 0x6, .message m => .ok (.canToWire m)
  | 0x7, .record bs len => .ok (.canFromWire bs len)
  | 0x8, .rawId id => .ok (.canIdEncode id)
  | 0x9, .hwId idField ide => .ok (.canIdDecode idField ide)
  | 0xA, .message m => .ok (.canTxFrame m)
  | 0xB, .frame f => .ok (.canRxFrame f)
  | 0xC, .message m => .ok (.rlyPush m)
  | 0xD, .none => .ok .rlyTake
  | n, _ => if n < 0xE then .reject .operandShape else .reject .noOperation

/-- The command a validated frame carries, by its command id alone (spec/42_command_processor.md rule
R173; every id but the six is the unknown command, spec/30_encoding.md rule R94). -/
def decodeCommand (cid : Byte) (payload : List Byte) : Instr :=
  if cid = Config.cmdRead then .read payload
  else if cid = Config.cmdWrite then .write payload
  else if cid = Config.cmdStatus then .status payload
  else if cid = Config.cmdReset then .reset payload
  else if cid = Config.cmdVersion then .version payload
  else if cid = Config.cmdEchoString then .echoString payload
  else .unknownCmd cid payload

/-- What an inbound control frame asks for. Total: a frame that fails decode or validation asks for the
protocol-error response (rules R171, R172), and "the match selects the command only for a frame that
has already passed" both (rule R92). -/
def decodeFrame (draw : Nat → Byte) (wb : List Byte) : Instr :=
  match decodePacket Config.wireLen draw wb with
  | .err .malformedLength => .protocolErrorRsp .badLength
  | .ok p =>
    match validatePacket p with
    | .err e => .protocolErrorRsp e
    | .ok => decodeCommand p.commandId p.payload

/-- The decoder. -/
def decode (draw : Nat → Byte) : Request → Decoded
  | .op sel operands => decodeOp sel operands
  | .frame wb => .ok (decodeFrame draw wb)

/-! ### Encoding -/

/-- `REQ <mnemonic> [payload]` (rule R115): the valid frame with this command id and payload. The bytes
after the checksum are zero, which a sender may choose (spec/70_reset_and_hazards.md rule R313). -/
def requestFrame (cid : Byte) (payload : List Byte) : List Byte :=
  encodePacket Config.wireLen (fun _ => 0) (buildResponse cid payload)

/-- The encoder. The form of PROTOCOL_ERROR_RSP is a response (rule R84: the direction tells it from a
request, no bit of the frame does). -/
def encode : Instr → Request
  | .crc16 bs => .op 0x0 (.bytes bs)
  | .pktEncode p => .op 0x1 (.packet p)
  | .pktDecode wb => .op 0x2 (.buffer wb)
  | .pktValidate p => .op 0x3 (.packet p)
  | .pktBuildResponse req cid d => .op 0x4 (.response req cid d)
  | .cmdProcess wb => .op 0x5 (.buffer wb)
  | .canToWire m => .op 0x6 (.message m)
  | .canFromWire bs len => .op 0x7 (.record bs len)
  | .canIdEncode id => .op 0x8 (.rawId id)
  | .canIdDecode idField ide => .op 0x9 (.hwId idField ide)
  | .canTxFrame m => .op 0xA (.message m)
  | .canRxFrame f => .op 0xB (.frame f)
  | .rlyPush m => .op 0xC (.message m)
  | .rlyTake => .op 0xD .none
  | .read payload => .frame (requestFrame Config.cmdRead payload)
  | .write payload => .frame (requestFrame Config.cmdWrite payload)
  | .status payload => .frame (requestFrame Config.cmdStatus payload)
  | .reset payload => .frame (requestFrame Config.cmdReset payload)
  | .version payload => .frame (requestFrame Config.cmdVersion payload)
  | .echoString payload => .frame (requestFrame Config.cmdEchoString payload)
  | .unknownCmd cid payload => .frame (requestFrame cid payload)
  | .protocolErrorRsp e => .frame (requestFrame Config.errCmdId [resultCode (kindOf e)])

/-! ### The words of spec/opcode_table.json -/

/-- Operands of zeros for a selector, since the table gives an operation's operands no bits. -/
def zeroOperands (sel : BitVec 4) : Operands :=
  match sel.toNat with
  | 0x0 => .bytes []
  | 0x1 => .packet Packet.zero
  | 0x2 => .buffer (List.replicate Config.wireLen 0)
  | 0x3 => .packet Packet.zero
  | 0x4 => .response none 0 []
  | 0x5 => .buffer (List.replicate Config.wireLen 0)
  | 0x6 => .message CanMessage.zero
  | 0x7 => .record [] 0
  | 0x8 => .rawId 0
  | 0x9 => .hwId 0 false
  | 0xA => .message CanMessage.zero
  | 0xB => .frame HwFrame.zero
  | 0xC => .message CanMessage.zero
  | _ => .none

/-- The four bytes of a prefix word `PW`, "offset 0 most significant" (rule R92). -/
def prefixBytes (pw : Nat) : List Byte :=
  [BitVec.ofNat 8 (pw / 2 ^ 24), BitVec.ofNat 8 (pw / 2 ^ 16), BitVec.ofNat 8 (pw / 2 ^ 8),
   BitVec.ofNat 8 pw]

/-- The prefix word of PROTOCOL_ERROR_RSP, the one row with no bit left free and no precondition that
the frame has passed PKT.VALIDATE. -/
def protocolErrorWord : Nat := 0xAA55FF01

/-- The 64-byte frame of a prefix word: payload bytes zero, then the checksum that a request row's
precondition "frame passed PKT.DECODE and PKT.VALIDATE" asks for, then zeros. The word of
PROTOCOL_ERROR_RSP is laid out with zeros alone, and so fails validation (log 4). -/
def tableFrame (pw : Nat) : List Byte :=
  let body := prefixBytes pw ++ List.replicate (pw % 2 ^ 8) 0
  let check := if pw = protocolErrorWord then [0, 0] else [lo8 (crc16 body), hi8 (crc16 body)]
  let frame := (body ++ check).take Config.wireLen
  frame ++ List.replicate (Config.wireLen - frame.length) 0

/-- The agent that issues a table word's operation: RLY.PUSH is P's alone, M may issue every other one
(spec/10_state.md rule R36). -/
def tableAgent (sel : BitVec 4) : Agent := if sel = 0xC then .P else .M

/-- A word of spec/opcode_table.json as an element of the issued sequence: a row of fewer than 32 bits
is an operation's selector (mask 0xF), a row of 32 bits the prefix word of a control frame. -/
def tableInput (nbits w : Nat) : Input :=
  if nbits < 32 then
    .issue (tableAgent (BitVec.ofNat 4 w)) (BitVec.ofNat 4 w) (zeroOperands (BitVec.ofNat 4 w))
  else .controlIn (tableFrame (w % 2 ^ 32))

/-- The instruction the decoder reads from a word of spec/opcode_table.json. -/
def decodeTableWord (nbits w : Nat) : Option Instr :=
  match tableInput nbits w with
  | .issue _ sel operands =>
    match decodeOp sel operands with
    | .ok i => some i
    | .reject _ => none
  | .controlIn wb => some (decodeFrame (Config.drawByte 0) wb)
  | _ => none

end Sys2Proof
end

