-- ==== Sys2Proof/Machine/State.lean ====
section
/-!
DEFINITION. The state of the block (spec/10_state.md rule R20), the input and the observables of a run
(spec/70_reset_and_hazards.md rule R305), and the reasons a step stops.
-/

namespace Sys2Proof.Machine

/-- `slot_state` "has exactly two values" (rule R22). -/
inductive SlotState
  | empty
  | full
deriving DecidableEq, Repr

/-- The first five fields are the block's "whole persistent state" (rule R20). The others are the
model's own: the issued sequence (rule R21), where M stands in a bridge contract, what an observer sees
(rule R305; newest first) and the number of draws made (log 1, 6, 12, 14). -/
structure State where
  /-- `slot_state` (rule R22). -/
  slotState : SlotState
  /-- `slot_msg` (rule R23). -/
  slotMsg : CanMessage
  /-- `ts_ctr` (rule R26). -/
  tsCtr : U32
  /-- `deviceStatus` (rule R24). -/
  deviceStatus : Byte
  /-- `packetCounter` (rule R25). -/
  packetCounter : U32
  /-- The operations and events still to come, in their interleaving. -/
  inputs : List Input
  /-- What M does next in the bridge contract it is in, if it is in one (spec/60_exceptions.md rules R266,
  R286 to R288). -/
  task : Option BridgeTask
  /-- The results of the operations done. -/
  results : List Result
  /-- What `usb_write(control)` received (spec/60_exceptions.md rule R286). -/
  usbControlOut : List (List Byte)
  /-- What `usb_write(can)` received (rule R287). -/
  usbCanOut : List (List Byte)
  /-- What `can_send` received (rule R288). -/
  canOut : List HwFrame
  /-- How many draws were made: the number of the next free value. -/
  draws : Nat
deriving DecidableEq, Repr

/-- No constructor: "Errors are results, not traps", "none is fatal to the process"
(spec/60_exceptions.md rule R260; log 22). -/
inductive Fault
deriving DecidableEq, Repr

/-- The situations to which the spec gives no meaning (spec/60_exceptions.md rule R264). Each is
safe: the model stops where an implementation would do something the spec does not describe. -/
inductive Refusal
  /-- Raised by `exec` for an instruction without a meaning; no arm is left so. Safe. -/
  | notModelled (mnemonic : String)
  /-- Raised by `issueOp`: `op_sel` 0xE and 0xF select no operation (rule R112). Safe. -/
  | noOperation
  /-- Raised by `issueOp`: the operands are not those of the selected operation (rule R110). Safe. -/
  | operandShape
  /-- Raised by `issueOp`: "An operation issued by an agent without the right is outside the spec"
  (rule R36). Safe. -/
  | wrongAgent
  /-- Raised by PKT.ENCODE of a Packet with `dataLength > 60` (rule R145). Safe. -/
  | encodeOversized
  /-- Raised by PKT.BUILD_RESPONSE with `n > 60` (rule R158). Safe. -/
  | responseOversized
  /-- Raised by ECHO_STRING with a payload of 60 bytes or more, whose response no Packet can hold
  (rule R185). Safe. -/
  | echoOversized
  /-- Raised by CAN.TX_FRAME of a message with `length > 8` (rule R226). Safe. -/
  | txOversized
deriving DecidableEq, Repr

/-- The outcome of an operation on the block. -/
abbrev Out := Host.Outcome State Fault Refusal

/-- Right after reset (rule R38), with nothing issued and nothing seen. The content of `slotMsg` is
unspecified and unobservable; zero is the model's choice (log 10). -/
def State.reset : State :=
  { slotState := .empty
    slotMsg := CanMessage.zero
    tsCtr := 0
    deviceStatus := 0
    packetCounter := 0
    inputs := []
    task := none
    results := []
    usbControlOut := []
    usbCanOut := []
    canOut := []
    draws := 0 }

end Sys2Proof.Machine
end

