-- ==== Sys2Proof/Machine/Flags.lean ====
section
/-!
DEFINITION. The block has no condition codes and no sticky error flag (spec/10_state.md rule R27);
`slot_state` "is the only flag-like state". What sets it and what clears it.
-/

namespace Sys2Proof.Machine

/-- The slot takes a message and becomes `Full`, whatever it was (spec/44_receive_relay.md rules R240,
R243). -/
def State.fillSlot (m : CanMessage) (s : State) : State := { s with slotMsg := m, slotState := .full }

/-- The slot becomes `Empty`; its content is left as it is (rule R245, decision D28). -/
def State.emptySlot (s : State) : State := { s with slotState := .empty }

end Sys2Proof.Machine
end

