-- ==== Sys2Proof/Machine/Translator.lean ====
section
/-!
DEFINITION. The pure functions of the CAN Message Translator (spec/43_can_translator.md).
-/

namespace Sys2Proof.Machine

/-- CAN.TO_WIRE (rule R210): the 18 bytes of rule R97. `length` is written as it stands (rule R211)
and all eight bits of `properties` are carried (rule R98). -/
def toWire (m : CanMessage) : List Byte :=
  le32 m.timestamp ++ le32 m.id ++ paddedData m ++ [m.length, m.properties]

/-- CAN.FROM_WIRE (rule R213): the only test is `len ≥ 18` (rule R214). `draw` stands for bytes an
operand with `len` above its own size does not have (log 16). -/
def fromWire (draw : Nat → Byte) (bytes : List Byte) (len : Nat) : Option CanMessage :=
  let g := byteAt draw bytes
  if len < Config.canWireLen then none
  else some
    { timestamp := unLe32 (g 0) (g 1) (g 2) (g 3)
      id := unLe32 (g 4) (g 5) (g 6) (g 7)
      data := Vector.ofFn fun i => g (8 + i.val)
      length := g 16
      properties := g 17 }

/-- CAN.ID_ENCODE (rule R217): standard or extended by the numeric value alone (rule R218), the shift
in 32 bits (rule R219). -/
def idEncode (id : U32) : U32 × Bool :=
  if id.toNat ≤ Config.stdIdMax then (id <<< Config.stdShift, false)
  else (id <<< Config.extShift, true)

/-- CAN.ID_DECODE (rule R221): a logical right shift by 3 or by 21. -/
def idDecode (idField : U32) (ide : Bool) : U32 :=
  if ide then idField >>> Config.extShift else idField >>> Config.stdShift

/-- CAN.TX_FRAME (rule R225) of a message with `length ≤ 8`: timestamp and properties are not used. -/
def txFrame (m : CanMessage) : HwFrame :=
  { idField := (idEncode m.id).1, ide := (idEncode m.id).2, dlc := m.length, data := m.data }

/-- CAN.RX_FRAME (rule R228): `properties` bit 0 is the extension flag, the timestamp is a
placeholder; `dlc` is copied unchanged (rule R229, log 17). -/
def rxFrame (f : HwFrame) : CanMessage :=
  { timestamp := 0
    id := idDecode f.idField f.ide
    data := f.data
    length := f.dlc
    properties := if f.ide then 1 else 0 }

end Sys2Proof.Machine
end

