-- ==== Sys2Proof/Machine/Ops.lean ====
section
/-!
DEFINITION. The operations on State that the meanings share.
-/

namespace Sys2Proof.Machine

/-! ### Results, draws and outputs -/

/-- An operation completes with its result (spec/70_reset_and_hazards.md rule R305). -/
def State.record (r : Result) (s : State) : State := { s with results := r :: s.results }

/-- The free value of a byte at offset `off` in the draw that comes next. -/
def State.draw (s : State) (off : Nat) : Byte := Config.drawByte s.draws off

/-- The draw is used up: a later one is another value (spec/00_scope.md section 5.2). -/
def State.drawn (s : State) : State := { s with draws := s.draws + 1 }

/-- `usb_write(control, wb)` (spec/60_exceptions.md rule R286). -/
def State.writeControl (wb : List Byte) (s : State) : State :=
  { s with usbControlOut := wb :: s.usbControlOut }

/-- `usb_write(can, cb)` (rule R287). -/
def State.writeCan (cb : List Byte) (s : State) : State := { s with usbCanOut := cb :: s.usbCanOut }

/-- `can_send(f)` (rule R288). -/
def State.sendFrame (f : HwFrame) (s : State) : State := { s with canOut := f :: s.canOut }

/-- Where M stands in a bridge contract (rules R286 to R288). -/
def State.setTask (k : Option BridgeTask) (s : State) : State := { s with task := k }

/-! ### The two counters and `deviceStatus` -/

/-- `packetCounter` by 1 in 32 bits, wrapping to 0 (spec/42_command_processor.md rule R188). -/
def State.countPacket (s : State) : State := { s with packetCounter := s.packetCounter + 1 }

/-- `ts_ctr` by 1 in 32 bits, wrapping to 0 (spec/44_receive_relay.md rule R240). -/
def State.countFrame (s : State) : State := { s with tsCtr := s.tsCtr + 1 }

/-- `deviceStatus <- v` (rule R176). -/
def State.setStatus (v : Byte) (s : State) : State := { s with deviceStatus := v }

/-- "Effect `deviceStatus:=0; counter:=0`" (rule R180). -/
def State.clearDevice (s : State) : State := { s with deviceStatus := 0, packetCounter := 0 }

/-! ### The two ways CMD.PROCESS answers -/

/-- Steps 4 and 5 of CMD.PROCESS (rules R187, R188): the response with the request's command id, then
the counter. `d` has at most 60 bytes wherever this is called (rule R185). -/
def answer (cid : Byte) (d : List Byte) (s : State) : Out :=
  .next (s.countPacket.record (.packet (buildResponse cid d)))

/-- The protocol-error path (spec/60_exceptions.md rule R270), "what plays the part of trap entry": a
response with command id 0xFF and the one code byte; no dispatch, no state change, nothing saved.
There is no return from it and nothing to restore (rule R273). -/
def takeProtocolError (e : ValidationError) (s : State) : Out :=
  .next (s.record (.packet (buildResponse Config.errCmdId [resultCode (kindOf e)])))

/-! ### Reset -/

/-- A message no byte of which is fixed. -/
def drawMessage (draw : Nat → Byte) : CanMessage :=
  { timestamp := unLe32 (draw 0) (draw 1) (draw 2) (draw 3)
    id := unLe32 (draw 4) (draw 5) (draw 6) (draw 7)
    data := Vector.ofFn fun i => draw (8 + i.val)
    length := draw 16
    properties := draw 17 }

/-- The reset of ENV (spec/70_reset_and_hazards.md rules R300, R301): "sets all state at once";
`slot_msg` is a draw (spec/10_state.md rule R38). What was issued and what was seen are no state of
the block; M, restarted, is in no contract (log 25). -/
def State.hardReset (s : State) : State :=
  { s.drawn with
    slotState := .empty
    slotMsg := drawMessage s.draw
    tsCtr := 0
    deviceStatus := 0
    packetCounter := 0
    task := none }

/-! ### One operation after another -/

/-- Where the first operation completes, the second follows on the state it left. -/
def andThen (o : Out) (f : State → Out) : Out :=
  match o with
  | .next s => f s
  | .fault r => .fault r
  | .refused r => .refused r

/-- The result of the operation just done. -/
def State.lastResult (s : State) : Option Result := s.results.head?

end Sys2Proof.Machine
end

