-- ==== Sys2Proof/Machine/Can.lean ====
section
/-!
DEFINITION. The meanings of the CAN Message Translator's operations (spec/43_can_translator.md).
-/

namespace Sys2Proof.Machine

/-- CAN.TO_WIRE (rule R210). -/
def execCanToWire (m : CanMessage) (s : State) : Out := .next (s.record (.record (toWire m)))

/-- CAN.FROM_WIRE (rule R213); an operand with `len` above its own size uses draws (log 16). -/
def execCanFromWire (bytes : List Byte) (len : Nat) (s : State) : Out :=
  .next (s.drawn.record (.parsed (fromWire s.draw bytes len)))

/-- CAN.ID_ENCODE (rule R217). -/
def execCanIdEncode (id : U32) (s : State) : Out :=
  .next (s.record (.hwId (idEncode id).1 (idEncode id).2))

/-- CAN.ID_DECODE (rule R221). -/
def execCanIdDecode (idField : U32) (ide : Bool) (s : State) : Out :=
  .next (s.record (.rawId (idDecode idField ide)))

/-- CAN.TX_FRAME (rule R225); `length > 8` is refused (rule R226). -/
def execCanTxFrame (m : CanMessage) (s : State) : Out :=
  if m.length.toNat ≤ Config.canMaxDlc then .next (s.record (.frame (txFrame m)))
  else .refused .txOversized

/-- CAN.RX_FRAME (rule R228). -/
def execCanRxFrame (f : HwFrame) (s : State) : Out := .next (s.record (.received (rxFrame f)))

end Sys2Proof.Machine
end

