-- ==== Sys2Proof/Machine/Command.lean ====
section
/-!
DEFINITION. The Command Processor (spec/42_command_processor.md): the meaning of each command of a frame
that passed decode and validation, of the protocol-error response, and CMD.PROCESS over them.
-/

namespace Sys2Proof.Machine

/-- READ (rule R174): the payload is ignored. -/
def execRead (_payload : List Byte) (s : State) : Out :=
  answer Config.cmdRead [Config.rcOk, s.deviceStatus] s

/-- WRITE (rules R176, R177): the first payload byte alone is used; without one, `MissingPayload`. -/
def execWrite (payload : List Byte) (s : State) : Out :=
  match payload with
  | v :: _ => answer Config.cmdWrite [Config.rcOk] (s.setStatus v)
  | [] => answer Config.cmdWrite [resultCode .missingPayload] s

/-- STATUS (rules R178, R179): the counter is reported as it stands before this request's own
increment. -/
def execStatus (_payload : List Byte) (s : State) : Out :=
  answer Config.cmdStatus ([Config.rcOk, s.deviceStatus] ++ le32 s.packetCounter) s

/-- RESET (rules R180, R181): clears `DeviceState` only, and then counts itself. -/
def execReset (_payload : List Byte) (s : State) : Out :=
  answer Config.cmdReset [Config.rcOk] s.clearDevice

/-- VERSION (rule R182). -/
def execVersion (_payload : List Byte) (s : State) : Out :=
  answer Config.cmdVersion [Config.rcOk, Config.verMajor, Config.verMinor, Config.verPatch] s

/-- ECHO_STRING (rule R183); a payload whose response would exceed 60 bytes is refused (rule R185). -/
def execEchoString (payload : List Byte) (s : State) : Out :=
  if payload.length = 0 then answer Config.cmdEchoString [resultCode .missingPayload] s
  else if payload.length < Config.maxData then answer Config.cmdEchoString (Config.rcOk :: payload) s
  else .refused .echoOversized

/-- An unknown command (rule R186): answered with the request's own id, and counted. -/
def execUnknownCmd (cid : Byte) (_payload : List Byte) (s : State) : Out :=
  answer cid [resultCode .invalidCommand] s

/-- The protocol-error response (rules R171, R172). -/
def execProtocolErrorRsp (e : ValidationError) (s : State) : Out := takeProtocolError e s

/-- Step 3 of CMD.PROCESS (rule R173): the command is selected by `commandId` alone, and the selection
is total. -/
def dispatchCommand (p : Packet) (s : State) : Out :=
  if p.commandId = Config.cmdRead then execRead p.payload s
  else if p.commandId = Config.cmdWrite then execWrite p.payload s
  else if p.commandId = Config.cmdStatus then execStatus p.payload s
  else if p.commandId = Config.cmdReset then execReset p.payload s
  else if p.commandId = Config.cmdVersion then execVersion p.payload s
  else if p.commandId = Config.cmdEchoString then execEchoString p.payload s
  else execUnknownCmd p.commandId p.payload s

/-- CMD.PROCESS (rule R170): decode, validate, dispatch, respond, count. -/
def execCmdProcess (wb : List Byte) (s : State) : Out :=
  match decodePacket Config.wireLen s.draw wb with
  | .err .malformedLength => takeProtocolError .badLength s.drawn
  | .ok p =>
    match validatePacket p with
    | .err e => takeProtocolError e s.drawn
    | .ok => dispatchCommand p s.drawn

end Sys2Proof.Machine
end

