-- ==== Sys2Proof/Machine/Crc.lean ====
section
/-!
DEFINITION. The meaning of CRC16 (spec/40_crc16.md).
-/

namespace Sys2Proof.Machine

/-- CRC16 (rule R120). -/
def execCrc16 (bytes : List Byte) (s : State) : Out := .next (s.record (.crc (crc16 bytes)))

end Sys2Proof.Machine
end

