-- ==== Sys2Proof/Machine/PacketCodec.lean ====
section
/-!
DEFINITION. The meanings of the Packet Codec's operations (spec/41_packet_codec.md). PKT.ENCODE and
PKT.DECODE may use draws, so they advance the draw counter.
-/

namespace Sys2Proof.Machine

/-- PKT.ENCODE (rule R141); a Packet with `dataLength > 60` is refused (rule R145). -/
def execPktEncode (p : Packet) (s : State) : Out :=
  if p.dataLength.toNat ≤ Config.maxData then
    .next (s.drawn.record (.wire (encodePacket Config.wireLen s.draw p)))
  else .refused .encodeOversized

/-- PKT.DECODE (rule R146). -/
def execPktDecode (wb : List Byte) (s : State) : Out :=
  .next (s.drawn.record (.decoded (decodePacket Config.wireLen s.draw wb)))

/-- PKT.VALIDATE (rule R151). -/
def execPktValidate (p : Packet) (s : State) : Out :=
  .next (s.record (.validated (validatePacket p)))

/-- PKT.BUILD_RESPONSE (rule R156); the request operand has no effect (rule R157), `n > 60` is refused
(rule R158). -/
def execPktBuildResponse (_req : Option Packet) (cid : Byte) (d : List Byte) (s : State) : Out :=
  if d.length ≤ Config.maxData then .next (s.record (.packet (buildResponse cid d)))
  else .refused .responseOversized

end Sys2Proof.Machine
end

