-- ==== Sys2Proof/Machine/Relay.lean ====
section
/-!
DEFINITION. The meanings of the Receive Relay's operations (spec/44_receive_relay.md), each one atomic
transition (spec/20_memory.md rule R62).
-/

namespace Sys2Proof.Machine

/-- RLY.PUSH (rule R240): the message as given but for the stamp, which is the counter before its
increment (rules R241, R242). -/
def execRlyPush (m : CanMessage) (s : State) : Out :=
  .next ((s.fillSlot { m with timestamp := s.tsCtr }).countFrame.record .done)

/-- RLY.TAKE (rule R245). -/
def execRlyTake (s : State) : Out :=
  match s.slotState with
  | .full => .next (s.emptySlot.record (.taken (some s.slotMsg)))
  | .empty => .next (s.record (.taken none))

end Sys2Proof.Machine
end

