-- ==== Sys2Proof/Machine/Dispatch.lean ====
section
/-!
DEFINITION. One arm per constructor of Instr.
-/

namespace Sys2Proof.Machine

def exec (i : Instr) (s : State) : Host.Outcome State Fault Refusal :=
  match i with
  | .crc16 bytes => Sys2Proof.Machine.execCrc16 bytes s
  | .pktEncode p => Sys2Proof.Machine.execPktEncode p s
  | .pktDecode wb => Sys2Proof.Machine.execPktDecode wb s
  | .pktValidate p => Sys2Proof.Machine.execPktValidate p s
  | .pktBuildResponse req cid d => Sys2Proof.Machine.execPktBuildResponse req cid d s
  | .cmdProcess wb => Sys2Proof.Machine.execCmdProcess wb s
  | .canToWire m => Sys2Proof.Machine.execCanToWire m s
  | .canFromWire bytes len => Sys2Proof.Machine.execCanFromWire bytes len s
  | .canIdEncode id => Sys2Proof.Machine.execCanIdEncode id s
  | .canIdDecode idField ide => Sys2Proof.Machine.execCanIdDecode idField ide s
  | .canTxFrame m => Sys2Proof.Machine.execCanTxFrame m s
  | .canRxFrame f => Sys2Proof.Machine.execCanRxFrame f s
  | .rlyPush m => Sys2Proof.Machine.execRlyPush m s
  | .rlyTake => Sys2Proof.Machine.execRlyTake s
  | .read payload => Sys2Proof.Machine.execRead payload s
  | .write payload => Sys2Proof.Machine.execWrite payload s
  | .status payload => Sys2Proof.Machine.execStatus payload s
  | .reset payload => Sys2Proof.Machine.execReset payload s
  | .version payload => Sys2Proof.Machine.execVersion payload s
  | .echoString payload => Sys2Proof.Machine.execEchoString payload s
  | .unknownCmd cid payload => Sys2Proof.Machine.execUnknownCmd cid payload s
  | .protocolErrorRsp e => Sys2Proof.Machine.execProtocolErrorRsp e s

end Sys2Proof.Machine
end

