-- ==== Sys2Proof/Machine/Bridge.lean ====
section
/-!
DEFINITION. What one element of the issued sequence does: an operation under the issue rights of
spec/10_state.md rule R36, an event of the bridge contract (spec/60_exceptions.md rules R286 to R288), a
coincident push and take (spec/20_memory.md rule R67), a reset (rule R300).
-/

namespace Sys2Proof.Machine

/-! ### Operations issued by an agent -/

/-- Issue rights (rule R36): RLY.PUSH by P only; RLY.TAKE, CMD.PROCESS and the commands it carries by M
only; the pure operations by either. -/
def mayIssue (a : Agent) : Instr → Bool
  | .rlyPush _ => a == .P
  | .rlyTake => a == .M
  | .cmdProcess _ => a == .M
  | .read _ => a == .M
  | .write _ => a == .M
  | .status _ => a == .M
  | .reset _ => a == .M
  | .version _ => a == .M
  | .echoString _ => a == .M
  | .unknownCmd _ _ => a == .M
  | .protocolErrorRsp _ => a == .M
  | .crc16 _ => true
  | .pktEncode _ => true
  | .pktDecode _ => true
  | .pktValidate _ => true
  | .pktBuildResponse _ _ _ => true
  | .canToWire _ => true
  | .canFromWire _ _ => true
  | .canIdEncode _ => true
  | .canIdDecode _ _ => true
  | .canTxFrame _ => true
  | .canRxFrame _ => true

/-- An operation request (rule R110): decoded, checked against the agent's rights, run. -/
def issueOp (a : Agent) (sel : BitVec 4) (operands : Operands) (s : State) : Out :=
  match decodeOp sel operands with
  | .ok i => if mayIssue a i then exec i s else .refused .wrongAgent
  | .reject .noOperation => .refused .noOperation
  | .reject .operandShape => .refused .operandShape

/-! ### The bridge contract: one operation of M a step, so that P may be served between two of them -/

/-- What M does with the result of an operation it issued in a bridge contract: the response of
CMD.PROCESS is encoded and the buffer written (rule R286); a message taken from the relay is serialised
and the record written, `None` ends the poll (rule R287); a message read from a CAN buffer becomes a frame
and the frame is sent, `None` ends the transfer (rule R288). -/
def nextTask : Result → Option BridgeTask
  | .packet r => some (.encodeResponse r)
  | .wire wb => some (.writeControl wb)
  | .taken (some m) => some (.serialise m)
  | .record cb => some (.writeCan cb)
  | .parsed (some m) => some (.buildFrame m)
  | .frame f => some (.sendFrame f)
  | .taken none | .parsed none | .crc _ | .decoded _ | .validated _ | .hwId _ _ | .rawId _ | .received _
  | .done => none

/-- An operation M issues in a bridge contract: once it completes, M knows what comes next. -/
def inContract (o : Out) : Out := andThen o fun t => .next (t.setTask (t.lastResult.bind nextTask))

/-- M does what it has to do next. -/
def runTask (k : BridgeTask) (s : State) : Out :=
  match k with
  | .encodeResponse r => inContract (execPktEncode r s)
  | .writeControl wb => .next (s.writeControl wb)
  | .buildFrame m => inContract (execCanTxFrame m s)
  | .sendFrame f => .next (s.sendFrame f)
  | .serialise m => inContract (execCanToWire m s)
  | .writeCan cb => .next (s.writeCan cb)

/-- M goes on with the contract it is in; in none, it waits. -/
def runMainline (s : State) : Out :=
  match s.task with
  | none => .next s
  | some k => runTask k (s.setTask none)

/-- The control channel (rule R286): CMD.PROCESS of the buffer, as the row of the command table its frame
asks for (the decode may use a draw). -/
def controlTransfer (wb : List Byte) (s : State) : Out := inContract (exec (decodeFrame s.draw wb) s.drawn)

/-- The host-to-bus contract (rule R288): CAN.FROM_WIRE of the buffer. -/
def canTransfer (bytes : List Byte) (s : State) : Out := inContract (execCanFromWire bytes bytes.length s)

/-- M polls the relay (rule R287): RLY.TAKE. -/
def pollRelay (s : State) : Out := inContract (execRlyTake s)

/-- A frame arrives (rule R287): P issues RLY.PUSH of CAN.RX_FRAME, which M cannot interrupt (rule
R265). -/
def frameArrives (f : HwFrame) (s : State) : Out :=
  andThen (execCanRxFrame f s) fun t =>
    match t.lastResult with
    | some (.received m) => execRlyPush m t
    | _ => .next t

/-- A push and a take at the same instant (rule R67): one of the two serial orders, which one is a draw
(log 13). DESIGN CHOICE: the take is a single RLY.TAKE that M issues, not the poll of rule R287, so a
message it delivers is recorded and M goes on to no CAN.TO_WIRE or `usb_write`; a poll coincident with an
arrival is issued as `frameArrival` and `relayPoll`, in either order (log 30). -/
def coincide (m : CanMessage) (s : State) : Out :=
  if Config.drawPushFirst s.draws then andThen (execRlyPush m s.drawn) execRlyTake
  else andThen (execRlyTake s.drawn) (execRlyPush m)

/-! ### One element of the issued sequence -/

/-- Whether an element is an operation or a contract of M, which M begins only when it is in no other:
M is "a single cooperative polling loop" (spec/10_state.md rule R35), "one at a time in arrival order"
(rule R286). What P and ENV do waits for nothing (rule R266). -/
def needsMainline : Input → Bool
  | .issue .M _ _ => true
  | .issue .P _ _ => false
  | .controlIn _ => true
  | .canIn _ => true
  | .frameArrival _ => false
  | .relayPoll => true
  | .mainline => false
  | .coincidence _ => true
  | .reset => false

/-- What an element does on a state from which it has been removed. -/
def runInput (x : Input) (s : State) : Out :=
  match x with
  | .issue a sel operands => issueOp a sel operands s
  | .controlIn wb => controlTransfer wb s
  | .canIn bytes => canTransfer bytes s
  | .frameArrival f => frameArrives f s
  | .relayPoll => pollRelay s
  | .mainline => runMainline s
  | .coincidence m => coincide m s
  | .reset => .next s.hardReset

/-- The first element of the issued sequence runs, unless it is M's and M is in a contract: then M goes
on with that, as it does when nothing is issued any more. With nothing issued and no contract the block
waits (rules R301, R305; log 2). -/
def stepInput (s : State) : Out :=
  match s.inputs with
  | [] => runMainline s
  | x :: rest =>
    if s.task.isSome && needsMainline x then runMainline s else runInput x { s with inputs := rest }

end Sys2Proof.Machine
end

