-- ==== Sys2Proof/Machine/Step.lean ====
section
/-!
DEFINITION. One step of a run (spec/70_reset_and_hazards.md rule R305).
-/

namespace Sys2Proof.Machine

/-- One step: the next element of the issued sequence. -/
def step (s : State) : Host.Outcome State Fault Refusal := stepInput s

/-- The state in which a word of spec/opcode_table.json is what the next step runs: it stands first in
the issued sequence, and M is in no contract, so that it may issue it (log 1, log 4). -/
def State.withFetchWord (s : State) (nbits w : Nat) : State :=
  { s with inputs := tableInput nbits w :: s.inputs, task := none }

end Sys2Proof.Machine
end

