-- ==== Sys2Proof/Safety.lean ====
section
/-!
DEFINITION. The words the statements are written in: what two states share, what a good state is, what
a response is, and a finite sequence of operations.
-/

namespace Sys2Proof.Machine

/-! ### What two states share -/

/-- The relay's three elements (spec/60_exceptions.md rule R274: one of the two paths). -/
def SameRelay (s t : State) : Prop :=
  t.slotState = s.slotState ∧ t.slotMsg = s.slotMsg ∧ t.tsCtr = s.tsCtr

/-- `DeviceState`, the other path. -/
def SameDevice (s t : State) : Prop :=
  t.deviceStatus = s.deviceStatus ∧ t.packetCounter = s.packetCounter

/-- The whole persistent state of the block (spec/10_state.md rule R20). -/
def SameBlock (s t : State) : Prop := SameRelay s t ∧ SameDevice s t

/-- What stands outside the block: the issued sequence, where M stands in a bridge contract, and the
external capabilities' outputs. -/
def SameOutside (s t : State) : Prop :=
  t.inputs = s.inputs ∧ t.task = s.task ∧ t.usbControlOut = s.usbControlOut ∧ t.usbCanOut = s.usbCanOut ∧
  t.canOut = s.canOut

/-- Equal but for the content of an empty slot, which "no operation" can observe (rule R23). -/
def SameButHiddenSlot (s t : State) : Prop :=
  t = { s with slotMsg := t.slotMsg } ∧ (s.slotState = .full → t.slotMsg = s.slotMsg)

/-- Two outcomes an observer cannot tell apart: the same refusal, or next states equal but for an
empty slot's content. -/
def SameOutcome (x y : Out) : Prop :=
  match x, y with
  | .next s, .next t => SameButHiddenSlot s t
  | .refused r, .refused q => r = q
  | _, _ => False

/-! ### Good states -/

/-- Rule R39 (a): a full slot holds the stamp of the most recent push. -/
def StampInv (s : State) : Prop := s.slotState = .full → s.slotMsg.timestamp = s.tsCtr - 1

/-- A buffer that `usb_write(control)` may receive: `WIRE_LEN` bytes beginning with the header. -/
def ControlBufferOk (wb : List Byte) : Prop :=
  wb.length = Config.wireLen ∧ wb[0]? = some Config.hdr0 ∧ wb[1]? = some Config.hdr1

/-- A frame that `can_send` may receive: a DLC of 0 to 8 and an identifier aligned as rule R100 says. -/
def SentFrameOk (f : HwFrame) : Prop :=
  f.dlc.toNat ≤ Config.canMaxDlc ∧
  f.idField.toNat % 2 ^ (if f.ide then Config.extShift else Config.stdShift) = 0

/-- What M still has to do leads to legal outputs: a response it will encode has the constant header and a
legal length, so that PKT.ENCODE of it completes. -/
def TaskOk : BridgeTask → Prop
  | .encodeResponse r => r.header = (Config.hdr0, Config.hdr1) ∧ r.dataLength.toNat ≤ Config.maxData
  | .writeControl wb => ControlBufferOk wb
  | .buildFrame _ => True
  | .sendFrame f => SentFrameOk f
  | .serialise _ => True
  | .writeCan cb => cb.length = Config.canWireLen

/-- Everything handed to the external capabilities has its legal form, and so will what M is about to
hand to them. -/
def OutputsOk (s : State) : Prop :=
  (∀ k ∈ s.task, TaskOk k) ∧
  (∀ wb ∈ s.usbControlOut, ControlBufferOk wb) ∧
  (∀ cb ∈ s.usbCanOut, cb.length = Config.canWireLen) ∧
  (∀ f ∈ s.canOut, SentFrameOk f)

/-! ### Responses and defects -/

/-- `r` is the Packet with the constant header, command id `cid`, payload `d`, zero padding and the
checksum of its own canonical form (spec/41_packet_codec.md rule R156). -/
def IsResponse (r : Packet) (cid : Byte) (d : List Byte) : Prop :=
  r.header = (0xAA#8, 0x55#8) ∧ r.commandId = cid ∧ r.dataLength.toNat = d.length ∧
  (∀ i (h : i < 60), r.data[i] = d.getD i 0) ∧
  r.checksum = crc16 ([0xAA#8, 0x55#8, cid, BitVec.ofNat 8 d.length] ++ d)

/-- A control wire buffer that begins with these bytes; what follows is zero. -/
def padded (bs : List Byte) : List Byte := bs ++ List.replicate (Config.wireLen - bs.length) 0#8

/-- `CRC16` in the bit-serial form of spec/40_crc16.md rule R123: one input bit. -/
def crcSerialBit (c : U16) (bit : Bool) : U16 :=
  if c.getLsbD 15 ^^ bit then (c <<< 1) ^^^ 0x1021#16 else c <<< 1

/-- Rule R123: the bits of one byte, from 7 down to 0. -/
def crcSerialByte (c : U16) (b : Byte) : U16 :=
  [7, 6, 5, 4, 3, 2, 1, 0].foldl (fun c k => crcSerialBit c (b.getLsbD k)) c

/-! ### Sequences of operations -/

/-- The operations of a list, one after another. -/
def runOps : List Instr → State → Out
  | [], s => .next s
  | i :: is, s => andThen (exec i s) (runOps is)

/-- The steps of a run, one after another. -/
def runSteps : Nat → State → Out
  | 0, s => .next s
  | n + 1, s => andThen (step s) (runSteps n)

/-- Frames that land, in their order, before what follows. -/
def landing (fs : List HwFrame) (rest : List Input) : List Input := fs.map .frameArrival ++ rest

/-- A control-frame row whose request counts as dispatched (spec/42_command_processor.md rule R188),
RESET apart. -/
def countsUp : Instr → Bool
  | .read _ | .write _ | .status _ | .version _ | .echoString _ | .unknownCmd _ _ => true
  | _ => false

/-- RESET, as a control-frame row. -/
def isResetRow : Instr → Bool
  | .reset _ => true
  | _ => false

/-- CMD.PROCESS, which runs whichever row its buffer asks for. -/
def isProcess : Instr → Bool
  | .cmdProcess _ => true
  | _ => false

/-- RLY.PUSH. -/
def isPush : Instr → Bool
  | .rlyPush _ => true
  | _ => false

/-- The operations that are pure in the table of spec/00_scope.md rule R8. -/
def isPure : Instr → Bool
  | .crc16 _ | .pktEncode _ | .pktDecode _ | .pktValidate _ | .pktBuildResponse _ _ _
  | .canToWire _ | .canFromWire _ _ | .canIdEncode _ | .canIdDecode _ _ | .canTxFrame _
  | .canRxFrame _ => true
  | _ => false

/-- The operations of the Receive Relay. -/
def isRelay : Instr → Bool
  | .rlyPush _ | .rlyTake => true
  | _ => false

/-- A result by which RLY.TAKE delivered a message. -/
def delivers : Result → Bool
  | .taken (some _) => true
  | _ => false

end Sys2Proof.Machine
end

