-- ==== Sys2Proof/Certificates/Slice0/Obligations.lean ====
section
/-!
DEFINITION. The statements for the provers. Each docstring names the rule of spec/ it formalises; where a
clause rests on a decision the spec marks as its own, or on a log entry, it says so.
-/

open Sys2Proof Sys2Proof.Machine

/-! ### CRC16 -/

/-- 40_crc16.md R120; the eight shifts of a byte are R121, which the spec takes from general knowledge
(log 18): CRC16 starts at 0xFFFF, takes the bytes in order, ends with the register as it stands; it
completes on every sequence and writes no state of the block. -/
def Obligations.Crc16FoldsFromInitialValue : Prop :=
  ∀ (bytes : List Byte) (s : State),
    exec (.crc16 bytes) s
        = .next { s with results := .crc (bytes.foldl crcStep 0xFFFF#16) :: s.results } ∧
    (bytes.foldl crcStep 0xFFFF#16 = crc16 bytes) ∧
    (∀ (c : U16) (b : Byte), crcStep c b =
      crcShift (crcShift (crcShift (crcShift (crcShift (crcShift (crcShift (crcShift
        (c ^^^ (b.zeroExtend 16 <<< 8)))))))))) ∧
    (∀ c : U16, crcShift c = if c.getLsbD 15 then (c <<< 1) ^^^ 0x1021#16 else c <<< 1)

/-- 40_crc16.md R123 (the spec's derivation): the bit-serial form gives the same register after every
byte. -/
def Obligations.CrcSerialFormAgrees : Prop :=
  ∀ (c : U16) (bytes : List Byte), bytes.foldl crcSerialByte c = bytes.foldl crcStep c

/-- 40_crc16.md R126, R127 (the spec's derivations): the incremental law and the empty sequence. -/
def Obligations.CrcIncrementalLaw : Prop :=
  crc16 [] = 0xFFFF#16 ∧ ∀ a b : List Byte, crc16 (a ++ b) = b.foldl crcStep (crc16 a)

/-! ### The Packet Codec -/

/-- 41_packet_codec.md R141: where each byte of an encoded frame is, for every payload length 0 to 60;
a byte that does not fit 64 is dropped (decision D7), a byte left over is the draw of its offset
(decision D10; log 6), and header and checksum are the Packet's own (decision D8). -/
def Obligations.EncodePlacesEveryByte : Prop :=
  ∀ (p : Packet) (s : State), p.dataLength.toNat ≤ 60 →
    ∃ wb : List Byte,
      exec (.pktEncode p) s
        = .next { s with results := .wire wb :: s.results, draws := s.draws + 1 } ∧
      wb.length = 64 ∧
      wb[0]? = some p.header.1 ∧ wb[1]? = some p.header.2 ∧
      wb[2]? = some p.commandId ∧ wb[3]? = some p.dataLength ∧
      (∀ i (h : i < 60), i < p.dataLength.toNat → wb[4 + i]? = some p.data[i]) ∧
      (4 + p.dataLength.toNat < 64 →
        wb[4 + p.dataLength.toNat]? = some (p.checksum.extractLsb' 0 8)) ∧
      (5 + p.dataLength.toNat < 64 →
        wb[5 + p.dataLength.toNat]? = some (p.checksum.extractLsb' 8 8)) ∧
      (∀ off, 6 + p.dataLength.toNat ≤ off → off < 64 →
        wb[off]? = some (Config.drawByte s.draws off))

/-- 41_packet_codec.md R145: a Packet that breaks the invariant is refused. -/
def Obligations.EncodeRefusesOversized : Prop :=
  ∀ (p : Packet) (s : State), 60 < p.dataLength.toNat →
    exec (.pktEncode p) s = .refused .encodeOversized

/-- 41_packet_codec.md R146: the length check and the place of every field; a checksum byte outside the
64-byte buffer is the draw of its offset (decision D7; log 6, log 26). -/
def Obligations.DecodeReadsEveryField : Prop :=
  ∀ (wb : List Byte) (s : State) (h : wb.length = 64),
    (60 < wb[3].toNat →
      exec (.pktDecode wb) s
        = .next { s with results := .decoded (.err .malformedLength) :: s.results,
                         draws := s.draws + 1 }) ∧
    (wb[3].toNat ≤ 60 →
      ∃ p : Packet,
        exec (.pktDecode wb) s
          = .next { s with results := .decoded (.ok p) :: s.results, draws := s.draws + 1 } ∧
        p.header = (wb[0], wb[1]) ∧ p.commandId = wb[2] ∧ p.dataLength = wb[3] ∧
        (∀ i (hi : i < 60), i < wb[3].toNat → wb[4 + i]? = some p.data[i]) ∧
        (∀ i (hi : i < 60), wb[3].toNat ≤ i → p.data[i] = 0#8) ∧
        p.checksum.toNat
          = (wb.getD (4 + wb[3].toNat) (Config.drawByte s.draws (4 + wb[3].toNat))).toNat
            + 256 * (wb.getD (5 + wb[3].toNat) (Config.drawByte s.draws (5 + wb[3].toNat))).toNat)

/-- 41_packet_codec.md R147: two buffers that agree on offsets 0 to `5 + L` decode to the same Packet,
for every `WIRE_LEN` and with the same draws. -/
def Obligations.DecodeIgnoresTail : Prop :=
  ∀ (wl : Nat) (draw : Nat → Byte) (a b : List Byte) (n : Byte), 64 ≤ wl →
    a.length = wl → b.length = wl → a[3]? = some n →
    (∀ off, off < 6 + n.toNat → a[off]? = b[off]?) →
    decodePacket wl draw a = decodePacket wl draw b

/-- 92_eei_decisions.md D43 (the spec's decision; log 8): a control transfer shorter than 64 bytes
decodes and is processed as the 64-byte buffer whose missing bytes are draws; of a longer one the first
64 bytes are read. -/
def Obligations.ShortTransferBytesAreDraws : Prop :=
  ∀ (wb : List Byte) (s : State),
    let full := wb.take 64 ++ (List.range (64 - wb.length)).map fun k =>
      Config.drawByte s.draws (wb.length + k)
    full.length = 64 ∧
    exec (.pktDecode wb) s = exec (.pktDecode full) s ∧
    exec (.cmdProcess wb) s = exec (.cmdProcess full) s

/-- 41_packet_codec.md R150 (the spec's derivation), for every `WIRE_LEN` of at least 64: encode then
decode, for the lengths that fit and for those that do not, and decode then encode. -/
def Obligations.PacketRoundTrip : Prop :=
  ∀ (wl : Nat) (d1 d2 : Nat → Byte), 64 ≤ wl →
    (∀ p : Packet, p.dataLength.toNat ≤ 60 →
      ∃ q, decodePacket wl d2 (encodePacket wl d1 p) = .ok q ∧
        q.header = p.header ∧ q.commandId = p.commandId ∧ q.dataLength = p.dataLength ∧
        q.payload = p.payload ∧
        (∀ i (h : i < 60), p.dataLength.toNat ≤ i → q.data[i] = 0#8) ∧
        (6 + p.dataLength.toNat ≤ wl → p.Equiv q ∧
          (q = p ↔ ∀ i (h : i < 60), p.dataLength.toNat ≤ i → p.data[i] = 0#8)) ∧
        (5 + p.dataLength.toNat = wl →
          q.checksum.toNat = (p.checksum.extractLsb' 0 8).toNat + 256 * (d2 wl).toNat) ∧
        (4 + p.dataLength.toNat = wl →
          q.checksum.toNat = (d2 wl).toNat + 256 * (d2 (wl + 1)).toNat)) ∧
    (∀ (wb : List Byte) (n : Byte), wb.length = wl → wb[3]? = some n → 6 + n.toNat ≤ wl →
      n.toNat ≤ 60 →
      ∃ q, decodePacket wl d2 wb = .ok q ∧
        ∀ off, off < 6 + n.toNat → (encodePacket wl d1 q)[off]? = wb[off]?)

/-- 41_packet_codec.md R151: the three checks, the first failure being the result. -/
def Obligations.ValidateChecksInOrder : Prop :=
  ∀ (p : Packet) (s : State),
    ∃ r : ValidateResult,
      exec (.pktValidate p) s = .next { s with results := .validated r :: s.results } ∧
      (p.header ≠ (0xAA#8, 0x55#8) → r = .err .badHeader) ∧
      (p.header = (0xAA#8, 0x55#8) → 60 < p.dataLength.toNat → r = .err .badLength) ∧
      (p.header = (0xAA#8, 0x55#8) → p.dataLength.toNat ≤ 60 → crc16 (canon p) ≠ p.checksum →
        r = .err .crcMismatch) ∧
      (p.header = (0xAA#8, 0x55#8) → p.dataLength.toNat ≤ 60 → crc16 (canon p) = p.checksum →
        r = .ok)

/-- 41_packet_codec.md R154 (its second sentence is the spec's derivation): one corrupted payload byte,
or a corrupted command id, of a valid Packet is always found. -/
def Obligations.OneCorruptedByteIsFound : Prop :=
  ∀ p : Packet, validatePacket p = .ok →
    (∀ (i : Nat) (h : i < 60) (b : Byte), i < p.dataLength.toNat → b ≠ p.data[i] →
      validatePacket { p with data := p.data.set i b } = .err .crcMismatch) ∧
    (∀ c : Byte, c ≠ p.commandId →
      validatePacket { p with commandId := c } = .err .crcMismatch)

/-- 41_packet_codec.md R156: every field of the Packet built, whatever the request operand. -/
def Obligations.BuildResponseFillsEveryField : Prop :=
  ∀ (req : Option Packet) (cid : Byte) (d : List Byte) (s : State), d.length ≤ 60 →
    ∃ r, IsResponse r cid d ∧
      exec (.pktBuildResponse req cid d) s = .next { s with results := .packet r :: s.results }

/-- 41_packet_codec.md R158 (the spec's decision): `n > 60` is refused. -/
def Obligations.BuildResponseRefusesOversized : Prop :=
  ∀ (req : Option Packet) (cid : Byte) (d : List Byte) (s : State), 60 < d.length →
    exec (.pktBuildResponse req cid d) s = .refused .responseOversized

/-- 41_packet_codec.md R159 (the spec's derivation): what is built is valid, and where it fits the
buffer its receiver decodes and validates it. -/
def Obligations.BuiltResponseIsValid : Prop :=
  ∀ (cid : Byte) (d : List Byte), d.length ≤ 60 →
    validatePacket (buildResponse cid d) = .ok ∧
    ∀ (wl : Nat) (d1 d2 : Nat → Byte), 64 ≤ wl → 6 + d.length ≤ wl →
      ∃ q, decodePacket wl d2 (encodePacket wl d1 (buildResponse cid d)) = .ok q ∧
        validatePacket q = .ok ∧ q.commandId = cid ∧ q.payload = d

/-! ### The Command Processor -/

/-- 42_command_processor.md R174 (that the payload is ignored is the spec's decision D19): READ. -/
def Obligations.ReadReportsStatus : Prop :=
  ∀ (payload : List Byte) (s : State),
    ∃ r, IsResponse r 0x01#8 [0x00#8, s.deviceStatus] ∧
      exec (.read payload) s
        = .next { s with packetCounter := s.packetCounter + 1, results := .packet r :: s.results }

/-- 42_command_processor.md R176: WRITE, with and without a payload. (The counter's step is R188's.) -/
def Obligations.WriteSetsStatus : Prop :=
  ∀ (payload : List Byte) (s : State),
    decodeCommand 0x02#8 payload = .write payload ∧
    (∀ v rest, payload = v :: rest →
      ∃ r, IsResponse r 0x02#8 [0x00#8] ∧
        exec (.write payload) s
          = .next { s with deviceStatus := v, packetCounter := s.packetCounter + 1,
                           results := .packet r :: s.results }) ∧
    (payload = [] →
      ∃ r, IsResponse r 0x02#8 [0x01#8] ∧
        exec (.write payload) s
          = .next { s with packetCounter := s.packetCounter + 1,
                           results := .packet r :: s.results })

/-- 42_command_processor.md R178: STATUS reports the counter low byte first, as it stands before this
request's own increment. (The counter's step is R188's.) -/
def Obligations.StatusReportsCounter : Prop :=
  ∀ (payload : List Byte) (s : State),
    decodeCommand 0x03#8 payload = .status payload ∧
    ∃ r, IsResponse r 0x03#8
        [0x00#8, s.deviceStatus, s.packetCounter.extractLsb' 0 8, s.packetCounter.extractLsb' 8 8,
          s.packetCounter.extractLsb' 16 8, s.packetCounter.extractLsb' 24 8] ∧
      exec (.status payload) s
        = .next { s with packetCounter := s.packetCounter + 1, results := .packet r :: s.results }

/-- 42_command_processor.md R180, R181 (the counter's value 1 is the spec's decision D16): RESET clears
`DeviceState`, counts itself, and leaves the relay and `ts_ctr` alone. -/
def Obligations.ResetClearsDeviceStateOnly : Prop :=
  ∀ (payload : List Byte) (s : State),
    decodeCommand 0x04#8 payload = .reset payload ∧
    ∃ r, IsResponse r 0x04#8 [0x00#8] ∧
      exec (.reset payload) s
        = .next { s with deviceStatus := 0#8, packetCounter := 1#32,
                         results := .packet r :: s.results }

/-- 42_command_processor.md R182 (the triple has no value in the source: D14, log 9): VERSION. -/
def Obligations.VersionReportsTriple : Prop :=
  ∀ (payload : List Byte) (s : State),
    ∃ r, IsResponse r 0x05#8 [0x00#8, Config.verMajor, Config.verMinor, Config.verPatch] ∧
      exec (.version payload) s
        = .next { s with packetCounter := s.packetCounter + 1, results := .packet r :: s.results }

/-- 42_command_processor.md R183 and R185 (the refusal is the spec's decision D17): ECHO_STRING for
every payload length. -/
def Obligations.EchoReturnsPayload : Prop :=
  ∀ (payload : List Byte) (s : State),
    (0 < payload.length → payload.length < 60 →
      ∃ r, IsResponse r 0x06#8 (0x00#8 :: payload) ∧
        exec (.echoString payload) s
          = .next { s with packetCounter := s.packetCounter + 1,
                           results := .packet r :: s.results }) ∧
    (payload = [] →
      ∃ r, IsResponse r 0x06#8 [0x01#8] ∧
        exec (.echoString payload) s
          = .next { s with packetCounter := s.packetCounter + 1,
                           results := .packet r :: s.results }) ∧
    (payload.length = 60 → exec (.echoString payload) s = .refused .echoOversized)

/-- 42_command_processor.md R186 (that it counts is the spec's reading): an unknown command is answered
with its own id, 0xFF included. -/
def Obligations.UnknownCommandEchoesId : Prop :=
  ∀ (cid : Byte) (payload : List Byte) (s : State),
    ((∀ k : Byte, k ∈ [0x01#8, 0x02#8, 0x03#8, 0x04#8, 0x05#8, 0x06#8] → cid ≠ k) →
      decodeCommand cid payload = .unknownCmd cid payload) ∧
    ∃ r, IsResponse r cid [0x02#8] ∧
      exec (.unknownCmd cid payload) s
        = .next { s with packetCounter := s.packetCounter + 1, results := .packet r :: s.results }

/-- 60_exceptions.md R270 and 42_command_processor.md R171, R172 (the codes are decision D13, two of them
parameters without a value): the protocol-error path changes no state of the block. -/
def Obligations.ProtocolErrorChangesNothing : Prop :=
  ∀ (e : ValidationError) (s : State),
    ∃ r, IsResponse r 0xFF#8
        [match e with
         | .badHeader => Config.rcBadHeader
         | .badLength => Config.rcBadLength
         | .crcMismatch => 0x03#8] ∧
      exec (.protocolErrorRsp e) s = .next { s with results := .packet r :: s.results }

/-- 42_command_processor.md R170 and R173: CMD.PROCESS runs exactly the row its frame asks for, and
completes on every buffer but the refused 60-byte echo of R185 (the spec's decision D17; log 21). -/
def Obligations.ProcessRunsTheRowOfItsFrame : Prop :=
  ∀ (wb : List Byte) (s : State),
    exec (.cmdProcess wb) s = exec (decodeFrame s.draw wb) { s with draws := s.draws + 1 } ∧
    ((∃ t, exec (.cmdProcess wb) s = .next t) ∨
      (exec (.cmdProcess wb) s = .refused .echoOversized ∧
        ∃ payload, payload.length = 60 ∧ decodeFrame s.draw wb = .echoString payload))

/-- 42_command_processor.md R170 and R189 (the spec's derivation): CMD.PROCESS completes with one
response Packet for every frame that is no 60-byte echo (the exception is R185, the spec's decision D17;
log 21), the relay unchanged. -/
def Obligations.ProcessAnswersEveryOtherFrame : Prop :=
  ∀ (wb : List Byte) (s : State),
    (∀ payload, payload.length = 60 → decodeFrame s.draw wb ≠ .echoString payload) →
    ∃ t r, exec (.cmdProcess wb) s = .next t ∧ t.results = .packet r :: s.results ∧
      SameRelay s t ∧ SameOutside s t ∧ validatePacket r = .ok

/-- 60_exceptions.md R268 (the spec's derivation): of several defects exactly one is reported. -/
def Obligations.DefectPrecedence : Prop :=
  ∀ (draw : Nat → Byte) (wb : List Byte) (h : wb.length = 64),
    (60 < wb[3].toNat → decodeFrame draw wb = .protocolErrorRsp .badLength) ∧
    (wb[3].toNat ≤ 60 → (wb[0] ≠ 0xAA#8 ∨ wb[1] ≠ 0x55#8) →
      decodeFrame draw wb = .protocolErrorRsp .badHeader) ∧
    (wb[3].toNat ≤ 58 → wb[0] = 0xAA#8 → wb[1] = 0x55#8 →
      crc16 (wb.take (4 + wb[3].toNat))
        ≠ unLe16 (wb.getD (4 + wb[3].toNat) 0) (wb.getD (5 + wb[3].toNat) 0) →
      decodeFrame draw wb = .protocolErrorRsp .crcMismatch) ∧
    (wb[3].toNat ≤ 58 → wb[0] = 0xAA#8 → wb[1] = 0x55#8 →
      crc16 (wb.take (4 + wb[3].toNat))
        = unLe16 (wb.getD (4 + wb[3].toNat) 0) (wb.getD (5 + wb[3].toNat) 0) →
      decodeFrame draw wb = decodeCommand wb[2] ((wb.drop 4).take wb[3].toNat))

/-- 30_encoding.md R94 (the spec's derivation): the wire image of a protocol-error response, read as a
request, is the unknown command 0xFF; only the direction tells them apart. -/
def Obligations.ErrorImageIsUnknownRequest : Prop :=
  ∀ (draw : Nat → Byte) (e : ValidationError),
    ∃ wb, encode (.protocolErrorRsp e) = .frame wb ∧
      decodeFrame draw wb = .unknownCmd 0xFF#8 [resultCode (kindOf e)]

/-- 42_command_processor.md R188, R190 and 10_state.md R39 (c) (the spec's derivation): over any
sequence without CMD.PROCESS (which runs one of these rows) the counter rises by one per dispatched
request, and a RESET starts it again at 1. -/
def Obligations.CounterCountsDispatches : Prop :=
  (∀ (is : List Instr) (s t : State), (∀ i ∈ is, isProcess i = false ∧ isResetRow i = false) →
    runOps is s = .next t →
    t.packetCounter = s.packetCounter + BitVec.ofNat 32 (is.countP countsUp)) ∧
  (∀ (payload : List Byte) (is : List Instr) (s t : State),
    (∀ i ∈ is, isProcess i = false ∧ isResetRow i = false) →
    runOps (.reset payload :: is) s = .next t →
    t.packetCounter = BitVec.ofNat 32 (1 + is.countP countsUp))

/-! ### The CAN Message Translator -/

/-- 43_can_translator.md R210: every byte of the record, for every `length`. -/
def Obligations.ToWirePlacesEveryByte : Prop :=
  ∀ (m : CanMessage) (s : State),
    ∃ cb : List Byte,
      exec (.canToWire m) s = .next { s with results := .record cb :: s.results } ∧
      cb.length = 18 ∧
      (∀ i, i < 4 → cb[i]? = some (m.timestamp.extractLsb' (8 * i) 8)) ∧
      (∀ i, i < 4 → cb[4 + i]? = some (m.id.extractLsb' (8 * i) 8)) ∧
      (∀ i (h : i < 8),
        cb[8 + i]? = some (if i < m.length.toNat then m.data[i] else 0x00#8)) ∧
      cb[16]? = some m.length ∧ cb[17]? = some m.properties

/-- 43_can_translator.md R213 (the meaning of `len` is decision D36; a byte an operand does not have is a
draw, log 16): the one test and every field. -/
def Obligations.FromWireReadsEveryField : Prop :=
  ∀ (bytes : List Byte) (len : Nat) (s : State),
    let g := fun off => bytes.getD off (Config.drawByte s.draws off)
    (len < 18 →
      exec (.canFromWire bytes len) s
        = .next { s with results := .parsed none :: s.results, draws := s.draws + 1 }) ∧
    (18 ≤ len →
      ∃ m : CanMessage,
        exec (.canFromWire bytes len) s
          = .next { s with results := .parsed (some m) :: s.results, draws := s.draws + 1 } ∧
        m.timestamp.toNat
          = (g 0).toNat + 2 ^ 8 * (g 1).toNat + 2 ^ 16 * (g 2).toNat + 2 ^ 24 * (g 3).toNat ∧
        m.id.toNat
          = (g 4).toNat + 2 ^ 8 * (g 5).toNat + 2 ^ 16 * (g 6).toNat + 2 ^ 24 * (g 7).toNat ∧
        (∀ i (h : i < 8), m.data[i] = g (8 + i)) ∧
        m.length = g 16 ∧ m.properties = g 17)

/-- 43_can_translator.md R215 (the spec's derivation): both round trips of the CAN record. -/
def Obligations.CanRecordRoundTrip : Prop :=
  ∀ draw : Nat → Byte,
    (∀ m : CanMessage,
      ∃ m', fromWire draw (toWire m) 18 = some m' ∧
        m'.timestamp = m.timestamp ∧ m'.id = m.id ∧ m'.length = m.length ∧
        m'.properties = m.properties ∧
        (∀ i (h : i < 8), m'.data[i] = if i < m.length.toNat then m.data[i] else 0#8) ∧
        (m' = m ↔ ∀ i (h : i < 8), m.length.toNat ≤ i → m.data[i] = 0#8)) ∧
    (∀ b : List Byte, (hb : b.length = 18) →
      ∃ m, fromWire draw b 18 = some m ∧
        (∀ off (h : off < 18), (toWire m)[off]?
          = some (if 8 + b[16].toNat ≤ off ∧ off < 16 then 0#8 else b[off])) ∧
        (toWire m = b ↔ ∀ off (h : off < 16), 8 + b[16].toNat ≤ off → b[off] = 0#8))

/-- 43_can_translator.md R217, R218: the identifier encoding by the numeric value alone; that an identifier
above 0x1FFFFFFF is truncated is the spec's decision D22 (R219; log 28). -/
def Obligations.IdEncodeShiftsByValue : Prop :=
  ∀ (id : U32) (s : State),
    ∃ (f : U32) (e : Bool),
      exec (.canIdEncode id) s = .next { s with results := .hwId f e :: s.results } ∧
      (id.toNat ≤ 0x7FF → f.toNat = id.toNat * 2 ^ 21 ∧ e = false) ∧
      (0x7FF < id.toNat → f.toNat = id.toNat * 2 ^ 3 % 2 ^ 32 ∧ e = true)

/-- 43_can_translator.md R221: the identifier decoding; the bits shifted out are discarded. -/
def Obligations.IdDecodeShiftsByFlag : Prop :=
  ∀ (f : U32) (s : State),
    (∃ id : U32, exec (.canIdDecode f true) s = .next { s with results := .rawId id :: s.results } ∧
      id.toNat = f.toNat / 2 ^ 3 ∧ id.toNat < 2 ^ 29) ∧
    (∃ id : U32, exec (.canIdDecode f false) s = .next { s with results := .rawId id :: s.results } ∧
      id.toNat = f.toNat / 2 ^ 21 ∧ id.toNat < 2 ^ 11)

/-- 43_can_translator.md R222 (the general law is the spec's derivation): encode then decode. -/
def Obligations.IdRoundTrip : Prop :=
  ∀ id : U32,
    idDecode (idEncode id).1 (idEncode id).2 = id &&& 0x1FFFFFFF#32 ∧
    (id.toNat ≤ 0x1FFFFFFF → idDecode (idEncode id).1 (idEncode id).2 = id) ∧
    ((idEncode id).2 = false ↔ id.toNat ≤ 0x7FF)

/-- 43_can_translator.md R223 (the spec's derivation): decode then encode is an identity, the low bits
apart, exactly when the frame is standard or its identifier exceeds 0x7FF. -/
def Obligations.IdDecodeThenEncode : Prop :=
  ∀ (f : U32) (e : Bool),
    (idEncode (idDecode f e)
        = (f &&& (if e then 0xFFFFFFF8#32 else 0xFFE00000#32), e))
      ↔ (e = false ∨ 0x7FF < (idDecode f e).toNat)

/-- 43_can_translator.md R225, R226 (decisions D25, D21): CAN.TX_FRAME completes with `length ≤ 8`, uses
neither timestamp nor properties, and is refused above 8. -/
def Obligations.TxFrameBuildsFrame : Prop :=
  ∀ (m : CanMessage) (s : State),
    (m.length.toNat ≤ 8 →
      ∃ f : HwFrame,
        exec (.canTxFrame m) s = .next { s with results := .frame f :: s.results } ∧
        (f.idField, f.ide) = idEncode m.id ∧ f.dlc = m.length ∧ f.data = m.data ∧
        ∀ (t : U32) (p : Byte), exec (.canTxFrame { m with timestamp := t, properties := p }) s
          = exec (.canTxFrame m) s) ∧
    (8 < m.length.toNat → exec (.canTxFrame m) s = .refused .txOversized)

/-- 43_can_translator.md R228 (decisions D24, D25): CAN.RX_FRAME; a DLC above 8 is copied (R229). -/
def Obligations.RxFrameBuildsMessage : Prop :=
  ∀ (f : HwFrame) (s : State),
    ∃ m : CanMessage,
      exec (.canRxFrame f) s = .next { s with results := .received m :: s.results } ∧
      m.id = idDecode f.idField f.ide ∧ m.length = f.dlc ∧ m.data = f.data ∧ m.timestamp = 0#32 ∧
      m.properties.getLsbD 0 = f.ide ∧ m.properties.toNat < 2

/-! ### The Receive Relay -/

/-- 44_receive_relay.md R240 (the stamp before the increment is decision D26): RLY.PUSH, whatever the
slot held. -/
def Obligations.PushOverwritesAndStamps : Prop :=
  ∀ (m : CanMessage) (s : State),
    exec (.rlyPush m) s
      = .next { s with
          slotMsg := { timestamp := s.tsCtr, id := m.id, data := m.data, length := m.length,
                       properties := m.properties },
          tsCtr := s.tsCtr + 1, slotState := .full, results := .done :: s.results }

/-- 44_receive_relay.md R245: RLY.TAKE, selector 0xD, issued by M only, on a full and on an empty slot. -/
def Obligations.TakeEmptiesTheSlot : Prop :=
  ∀ s : State,
    encode .rlyTake = .op 0xD#4 .none ∧ mayIssue .M .rlyTake = true ∧ mayIssue .P .rlyTake = false ∧
    (s.slotState = .full →
      exec .rlyTake s
        = .next { s with slotState := .empty, results := .taken (some s.slotMsg) :: s.results }) ∧
    (s.slotState = .empty →
      exec .rlyTake s = .next { s with results := .taken none :: s.results })

/-- 44_receive_relay.md R248, R250 (the spec's derivations): from a full slot, a take, then any pushes,
then a take: the second message is the last one pushed, its stamp exceeds the first by the number of
pushes, so the loss is visible; a third take gives nothing. -/
def Obligations.LossShowsInTheStamps : Prop :=
  ∀ (s : State) (ms : List CanMessage) (m : CanMessage), StampInv s → s.slotState = .full →
    ∃ t, runOps ([.rlyTake] ++ ms.map .rlyPush ++ [.rlyPush m, .rlyTake, .rlyTake]) s = .next t ∧
      t.results.take 2
        = [.taken none,
           .taken (some { m with timestamp :=
             s.slotMsg.timestamp + BitVec.ofNat 32 (ms.length + 1) })] ∧
      t.slotState = .empty

/-- 10_state.md R39 (b) (the spec's derivation), 44_receive_relay.md R251: over any sequence of
operations `ts_ctr` rises by the number of pushes, and by nothing else. -/
def Obligations.StampCounterCountsPushes : Prop :=
  ∀ (is : List Instr) (s t : State), runOps is s = .next t →
    t.tsCtr = s.tsCtr + BitVec.ofNat 32 (is.countP isPush)

/-- 44_receive_relay.md R249 (the spec's derivation; the stamps are decision D26): over any sequence of
operations, the messages delivered are no more than the pushes and the one the slot may have held; and a
message that a take after it delivers is the operand of the latest push, with that push's stamp, no take
having come between, or the message the slot held at first, nothing having touched the relay. -/
def Obligations.DeliveredAtMostOnce : Prop :=
  (∀ (is : List Instr) (s t : State), runOps is s = .next t →
    t.results.countP delivers + (if t.slotState = .full then 1 else 0)
      ≤ s.results.countP delivers + (if s.slotState = .full then 1 else 0) + is.countP isPush) ∧
  (∀ (is : List Instr) (s t u : State) (m : CanMessage), runOps is s = .next t →
    exec .rlyTake t = .next u → u.results.head? = some (.taken (some m)) →
    (∃ before m' after, is = before ++ .rlyPush m' :: after ∧ (∀ i ∈ after, isRelay i = false) ∧
      m = { m' with timestamp := s.tsCtr + BitVec.ofNat 32 (before.countP isPush) }) ∨
    ((∀ i ∈ is, isRelay i = false) ∧ s.slotState = .full ∧ m = s.slotMsg))

/-! ### Frames -/

/-- 00_scope.md R8: the eleven pure operations change no state of the block and nothing outside it. -/
def Obligations.PureOperationsLeaveState : Prop :=
  ∀ (i : Instr) (s t : State), isPure i = true → exec i s = .next t →
    SameBlock s t ∧ SameOutside s t ∧ ∃ r, t.results = r :: s.results

/-- 60_exceptions.md R274 (the spec's derivation) and 10_state.md R37: the two paths share no state; the
relay's operations leave `DeviceState`, every other operation leaves the relay, none touches what stands
outside. -/
def Obligations.PathsAreIsolated : Prop :=
  ∀ (i : Instr) (s t : State), exec i s = .next t →
    (isRelay i = true → SameDevice s t) ∧ (isRelay i = false → SameRelay s t) ∧
    SameOutside s t ∧ ∃ r, t.results = r :: s.results

/-- 10_state.md R24, R25 and 42_command_processor.md R189 (the spec's derivation): which rows write
`deviceStatus`: WRITE and RESET, and CMD.PROCESS through them; no other. -/
def Obligations.OnlyWriteAndResetSetStatus : Prop :=
  ∀ (i : Instr) (s t : State), exec i s = .next t → t.deviceStatus ≠ s.deviceStatus →
    (∃ v rest, i = .write (v :: rest) ∧ t.deviceStatus = v) ∨
    (∃ payload, i = .reset payload ∧ t.deviceStatus = 0#8) ∨
    (∃ wb, i = .cmdProcess wb ∧
      ((∃ v rest, decodeFrame s.draw wb = .write (v :: rest) ∧ t.deviceStatus = v) ∨
       (∃ payload, decodeFrame s.draw wb = .reset payload ∧ t.deviceStatus = 0#8)))

/-! ### Steps, rights, the bridge -/

/-- A step runs the decoded instruction (10_state.md R21, 30_encoding.md R110; log 1): the operation an
agent with the right issues, P whatever M is in the middle of, M when it is in no contract; the row an
inbound control frame asks for, its response then being M's next task; while M is in a contract, M's next
operation of it where nothing is issued any more, where what is issued next is M's own, or where the
sequence says so (log 14); and with nothing issued and no contract the block waits (log 2). -/
def Obligations.StepRunsTheDecodedInstruction : Prop :=
  ∀ s : State,
    (s.inputs = [] → s.task = none → step s = .next s) ∧
    (∀ a sel operands rest i, s.inputs = .issue a sel operands :: rest → (a = .P ∨ s.task = none) →
      decode s.draw (.op sel operands) = .ok i → mayIssue a i = true →
      step s = exec i { s with inputs := rest }) ∧
    (∀ wb rest i, s.inputs = .controlIn wb :: rest → s.task = none →
      decode s.draw (.frame wb) = .ok i →
      step s = inContract (exec i { s with inputs := rest, draws := s.draws + 1 })) ∧
    (∀ k, s.task = some k → (∀ x rest, s.inputs = x :: rest → needsMainline x = true) →
      step s = runTask k { s with task := none }) ∧
    (∀ k rest, s.task = some k → s.inputs = .mainline :: rest →
      step s = runTask k { s with inputs := rest, task := none }) ∧
    (∀ rest, s.task = none → s.inputs = .mainline :: rest → step s = .next { s with inputs := rest })

/-- 60_exceptions.md R266 (the spec's decision D6) and R265: frames that arrive are served at once, before
M's next operation, whatever contract M is in the middle of: each is one RX_FRAME and one push, in one step
(the model's choice, log 14); after all of them the slot holds the last, stamped with the counter before
its increment (44_receive_relay.md R240, R241; the spec's decision D26, log 20), and M's task,
`DeviceState`, the draws and the outputs are as they were. -/
def Obligations.ProducerIsServedAtOnce : Prop :=
  (∀ (s : State) (f : HwFrame) (rest : List Input), s.inputs = .frameArrival f :: rest →
    ∃ m, exec (.canRxFrame f) s = .next { s with results := .received m :: s.results } ∧
      step s = exec (.rlyPush m) { s with inputs := rest, results := .received m :: s.results }) ∧
  (∀ (s : State) (fs : List HwFrame) (f : HwFrame) (rest : List Input),
    s.inputs = landing (fs ++ [f]) rest →
    ∃ t, runSteps (fs.length + 1) s = .next t ∧ t.inputs = rest ∧ t.task = s.task ∧
      t.slotState = .full ∧ t.tsCtr = s.tsCtr + BitVec.ofNat 32 (fs.length + 1) ∧
      t.slotMsg = { rxFrame f with timestamp := s.tsCtr + BitVec.ofNat 32 fs.length } ∧
      SameDevice s t ∧ t.draws = s.draws ∧ t.usbControlOut = s.usbControlOut ∧
      t.usbCanOut = s.usbCanOut ∧ t.canOut = s.canOut)

/-- 10_state.md R36 (decision D5) and 30_encoding.md R112 (decision D2): what an agent may not issue is
refused, and so is a selector without an operation, when its turn comes: P's at once, M's when M is in no
contract. -/
def Obligations.WrongRequestsAreRefused : Prop :=
  ∀ (s : State) (rest : List Input) (operands : Operands),
    (∀ m, s.inputs = .issue .M 0xC#4 (.message m) :: rest → s.task = none →
      step s = .refused .wrongAgent) ∧
    (s.inputs = .issue .P 0xD#4 .none :: rest → step s = .refused .wrongAgent) ∧
    (∀ wb, s.inputs = .issue .P 0x5#4 (.buffer wb) :: rest → step s = .refused .wrongAgent) ∧
    (∀ a, s.inputs = .issue a 0xE#4 operands :: rest → (a = .P ∨ s.task = none) →
      step s = .refused .noOperation) ∧
    (∀ a, s.inputs = .issue a 0xF#4 operands :: rest → (a = .P ∨ s.task = none) →
      step s = .refused .noOperation)

/-- 60_exceptions.md R286 and R266: one request gives one response, the encoded response Packet of the
row the frame asks for, whatever frames P receives between CMD.PROCESS, PKT.ENCODE and `usb_write`. The second
alternative, the refusal of a 60-byte ECHO_STRING, is the spec's decision D17 (42_command_processor.md R185;
log 21); that each of M's three operations is a step is the model's choice (log 14). -/
def Obligations.ControlTransferGetsOneResponse : Prop :=
  ∀ (s : State) (wb : List Byte) (fs gs : List HwFrame) (rest : List Input), s.task = none →
    s.inputs = .controlIn wb :: landing fs (.mainline :: landing gs (.mainline :: rest)) →
    (∃ t u r,
      exec (decodeFrame s.draw wb) { s with inputs := s.inputs.tail, draws := s.draws + 1 } = .next u ∧
      u.results = .packet r :: s.results ∧
      runSteps (3 + (fs.length + gs.length)) s = .next t ∧ t.inputs = rest ∧ t.task = none ∧
      t.usbControlOut = encodePacket 64 u.draw r :: s.usbControlOut ∧ SameDevice u t ∧
      t.tsCtr = s.tsCtr + BitVec.ofNat 32 (fs.length + gs.length) ∧ (fs ++ gs = [] → SameRelay s t) ∧
      t.usbCanOut = s.usbCanOut ∧ t.canOut = s.canOut) ∨
    (step s = .refused .echoOversized ∧
      ∃ payload, payload.length = 60 ∧ decodeFrame s.draw wb = .echoString payload)

/-- 60_exceptions.md R287, R266 and 43_can_translator.md R230 (the spec's derivation): a frame arrives, M
polls; the host gets the record with the raw identifier, the relay's stamp, the extension flag, and
zeros past the DLC, whatever frames P receives between RLY.TAKE, CAN.TO_WIRE and `usb_write`; and the poll
of an empty relay takes `None` and does nothing more. That the stamp is the counter before its increment is
the spec's decision D26 (44_receive_relay.md R240, R241; log 20), that a DLC above 8 is copied its decision
D25 (43_can_translator.md R229; log 17), and which step does what the model's choice (log 14). -/
def Obligations.BusToHost : Prop :=
  (∀ (s : State) (f : HwFrame) (fs gs : List HwFrame) (rest : List Input), s.task = none →
    s.inputs = .frameArrival f :: .relayPoll :: landing fs (.mainline :: landing gs (.mainline :: rest)) →
    ∃ t cb, runSteps (4 + (fs.length + gs.length)) s = .next t ∧ t.inputs = rest ∧ t.task = none ∧
      t.usbCanOut = cb :: s.usbCanOut ∧
      t.slotState = (if fs ++ gs = [] then .empty else .full) ∧
      t.tsCtr = s.tsCtr + 1 + BitVec.ofNat 32 (fs.length + gs.length) ∧ cb.length = 18 ∧
      cb.take 4 = le32 s.tsCtr ∧ (cb.drop 4).take 4 = le32 (idDecode f.idField f.ide) ∧
      (∀ i (h : i < 8), cb[8 + i]? = some (if i < f.dlc.toNat then f.data[i] else 0#8)) ∧
      cb[16]? = some f.dlc ∧ cb[17]? = some (if f.ide then 1#8 else 0#8) ∧
      SameDevice s t ∧ t.canOut = s.canOut ∧ t.usbControlOut = s.usbControlOut) ∧
  (∀ (s : State) (rest : List Input), s.task = none → s.inputs = .relayPoll :: rest →
    s.slotState = .empty →
    step s = .next { s with inputs := rest, results := .taken none :: s.results })

/-- 60_exceptions.md R288 (silence on a short buffer is decision D40), R266 and 43_can_translator.md R230:
a short buffer sends nothing; an accepted one sends CAN.TX_FRAME of the message CAN.FROM_WIRE reads from it,
whatever frames P receives in between, and that frame depends on record bytes 4 to 16 only; one with a
length byte above 8 is refused (R226, the spec's decision D21; D21 and D40: log 28). Which step does what
is the model's choice (log 14). -/
def Obligations.HostToBus : Prop :=
  ∀ (s : State) (b : List Byte) (fs gs : List HwFrame) (rest : List Input), s.task = none →
    s.inputs = .canIn b :: landing fs (.mainline :: landing gs (.mainline :: rest)) →
    (b.length < 18 →
      step s = .next { s with inputs := s.inputs.tail, results := .parsed none :: s.results,
                              draws := s.draws + 1 }) ∧
    (18 ≤ b.length → ∃ m, fromWire s.draw b b.length = some m ∧ m.length = b.getD 16 0 ∧
      (m.length.toNat ≤ 8 →
        ∃ t, runSteps (3 + (fs.length + gs.length)) s = .next t ∧ t.canOut = txFrame m :: s.canOut ∧
          t.inputs = rest ∧ t.task = none ∧ SameDevice s t ∧
          t.tsCtr = s.tsCtr + BitVec.ofNat 32 (fs.length + gs.length) ∧
          (fs ++ gs = [] → SameRelay s t) ∧
          t.usbControlOut = s.usbControlOut ∧ t.usbCanOut = s.usbCanOut) ∧
      (8 < m.length.toNat → runSteps (2 + fs.length) s = .refused .txOversized) ∧
      (∀ (draw : Nat → Byte) (b' : List Byte) (m' : CanMessage), fromWire draw b' b'.length = some m' →
        (∀ off, 4 ≤ off → off < 17 → b'[off]? = b[off]?) → txFrame m' = txFrame m))

/-- 20_memory.md R67 (decision D6): a coincident push and take, on a full and on an empty slot, ends as
one of the two serial orders; which one is a draw (log 13). The new message's stamp is the counter before
its increment, the spec's decision D26 (44_receive_relay.md R240, R241; log 20); the take is a single
RLY.TAKE, not a poll of the relay, which is the model's choice (log 30). -/
def Obligations.CoincidenceIsASerialOrder : Prop :=
  ∀ (s : State) (m : CanMessage) (rest : List Input), s.task = none →
    s.inputs = .coincidence m :: rest →
    ∃ t, step s = .next t ∧ t.tsCtr = s.tsCtr + 1 ∧ SameDevice s t ∧ t.inputs = rest ∧ t.task = none ∧
      ((t.slotState = .full ∧ t.slotMsg = { m with timestamp := s.tsCtr } ∧
          t.results = .done :: .taken (if s.slotState = .full then some s.slotMsg else none)
            :: s.results) ∨
       (t.slotState = .empty ∧
          t.results = .taken (some { m with timestamp := s.tsCtr }) :: .done :: s.results))

/-- 70_reset_and_hazards.md R300, R301 (the values are the spec's decision D29; log 11): the reset of ENV,
from every state. That what was issued and seen stays, and that M's contract is dropped, is the model's
choice (log 25). -/
def Obligations.HardResetSetsAllState : Prop :=
  ∀ (s : State) (rest : List Input), s.inputs = .reset :: rest →
    ∃ t, step s = .next t ∧ t.slotState = .empty ∧ t.tsCtr = 0#32 ∧ t.deviceStatus = 0#8 ∧
      t.packetCounter = 0#32 ∧ t.inputs = rest ∧ t.task = none ∧ t.results = s.results ∧
      t.usbControlOut = s.usbControlOut ∧ t.usbCanOut = s.usbCanOut ∧ t.canOut = s.canOut

/-- 70_reset_and_hazards.md R304 (the spec's derivation from decision D29): the first answers after
reset. -/
def Obligations.FirstAnswersAfterReset : Prop :=
  (∃ t, exec .rlyTake State.reset = .next t ∧ t.results = [.taken none]) ∧
  (∃ t r, exec (.read []) State.reset = .next t ∧ t.results = [.packet r] ∧
    r.payload = [0x00#8, 0x00#8]) ∧
  (∃ t r, exec (.status []) State.reset = .next t ∧ t.results = [.packet r] ∧
    r.payload = [0#8, 0#8, 0#8, 0#8, 0#8, 0#8]) ∧
  (∀ m, ∃ t, exec (.rlyPush m) State.reset = .next t ∧ t.slotMsg.timestamp = 0#32)

/-! ### Encoding -/

/-- 30_encoding.md R110: the selector and operands of every operation decode to it, and a decoded
request is the encoding of what it decodes to, so no operand is dropped and no two requests share an
operation. -/
def Obligations.OperationRequestsRoundTrip : Prop :=
  ∀ (sel : BitVec 4) (operands : Operands) (i : Instr),
    decodeOp sel operands = .ok i ↔ encode i = .op sel operands

/-- Decode and encode agree (30_encoding.md R80, R92, R110, R115) on every well-formed instruction but
PROTOCOL_ERROR_RSP, whose form is a response's (`ErrorImageIsUnknownRequest` says what that decodes to):
with every draw, exactly where the checksum fits the buffer (a payload of at most 58 bytes), and for a
payload of 59 or 60 bytes the frame decodes to the instruction or fails its checksum, by the draw
(41_packet_codec.md R148). -/
def Obligations.DecodeOfEncode : Prop :=
  ∀ (draw : Nat → Byte) (i : Instr), i.wellFormed = true → (∀ e, i ≠ .protocolErrorRsp e) →
    ((∀ wb, encode i = .frame wb → ∃ n, wb[3]? = some n ∧ n.toNat ≤ 58) →
      decode draw (encode i) = .ok i) ∧
    (decode draw (encode i) = .ok i ∨
      decode draw (encode i) = .ok (.protocolErrorRsp .crcMismatch))

/-- Words written out from the tables of 40_crc16.md R129, 42_command_processor.md and 95_test_vectors.md
section 2.1 decode to what they stand for. -/
def Obligations.SampleWordsDecode : Prop :=
    decodeFrame (Config.drawByte 0) (padded [0xAA, 0x55, 0x01, 0x00, 0x12, 0x80]) = .read [] ∧
    decodeFrame (Config.drawByte 0) (padded [0xAA, 0x55, 0x02, 0x01, 0x42, 0x6F, 0x81]) = .write [0x42] ∧
    decodeFrame (Config.drawByte 0) (padded [0xAA, 0x55, 0x06, 0x02, 0x48, 0x49, 0x2E, 0x4B])
      = .echoString [0x48, 0x49] ∧
    decodeFrame (Config.drawByte 0) (padded [0xAA, 0x55, 0x99, 0x00, 0x50, 0x11]) = .unknownCmd 0x99 [] ∧
    decodeFrame (Config.drawByte 0) (padded [0xAA, 0x55, 0x02, 0x01, 0x43, 0x6F, 0x81])
      = .protocolErrorRsp .crcMismatch ∧
    decodeOp 0xD .none = .ok .rlyTake ∧ decodeOp 0x0 (.bytes [0x00]) = .ok (.crc16 [0x00]) ∧
    decodeOp 0xE .none = .reject .noOperation

/-! ### Invariants -/

/-- 10_state.md R39 (a): the stamp invariant holds at reset, because the slot is empty there, which is the
spec's decision D29 (log 11). -/
def Obligations.StampInvAtReset : Prop := StampInv State.reset

/-- 10_state.md R39 (a) (the spec's derivation): every step keeps the stamp invariant. -/
def Obligations.StepKeepsStampInv : Prop :=
  ∀ s t : State, StampInv s → step s = .next t → StampInv t

/-- Every step keeps the legal form of all that was handed to the external capabilities, and of what M is
about to hand to them (60_exceptions.md R285, R286; 30_encoding.md R80, R97, R100), and it holds at reset. -/
def Obligations.StepKeepsOutputsOk : Prop :=
  OutputsOk State.reset ∧ ∀ s t : State, OutputsOk s → step s = .next t → OutputsOk t

/-- 10_state.md R23: the content of an empty slot is not observable: two states equal but for it step to
outcomes equal but for it. -/
def Obligations.EmptySlotIsUnobservable : Prop :=
  ∀ s t : State, SameButHiddenSlot s t → SameOutcome (step s) (step t)
end

