-- ==== Sys2Proof/Laws/Config.lean ====
section
/-!
SUPPORT. The numbers the constants stand for, for `simp` and `omega`.
-/

namespace Sys2Proof.Config

@[simp] theorem maxData_eq : maxData = 60 := rfl
@[simp] theorem wireLen_eq : wireLen = 64 := rfl
@[simp] theorem canWireLen_eq : canWireLen = 18 := rfl
@[simp] theorem canMaxDlc_eq : canMaxDlc = 8 := rfl
@[simp] theorem stdIdMax_eq : stdIdMax = 2047 := rfl
@[simp] theorem stdShift_eq : stdShift = 21 := rfl
@[simp] theorem extShift_eq : extShift = 3 := rfl

end Sys2Proof.Config
end

