-- ==== Sys2Proof/Laws/Codec.lean ====
section
/-!
SUPPORT. What the pure functions of the codec and the translator do, said once.
-/

namespace Sys2Proof.Machine

/-! ### Byte order -/

@[simp] theorem unLe16_lo8_hi8 (v : U16) : unLe16 (lo8 v) (hi8 v) = v := by
  apply BitVec.eq_of_toNat_eq
  simp only [unLe16, lo8, hi8, BitVec.toNat_ofNat, BitVec.extractLsb'_toNat, Nat.shiftRight_eq_div_pow]
  omega

@[simp] theorem lo8_unLe16 (b0 b1 : Byte) : lo8 (unLe16 b0 b1) = b0 := by
  apply BitVec.eq_of_toNat_eq
  simp only [unLe16, lo8, BitVec.toNat_ofNat, BitVec.extractLsb'_toNat, Nat.shiftRight_eq_div_pow]
  omega

@[simp] theorem hi8_unLe16 (b0 b1 : Byte) : hi8 (unLe16 b0 b1) = b1 := by
  apply BitVec.eq_of_toNat_eq
  simp only [unLe16, hi8, BitVec.toNat_ofNat, BitVec.extractLsb'_toNat, Nat.shiftRight_eq_div_pow]
  omega

@[simp] theorem length_le32 (v : U32) : (le32 v).length = 4 := rfl

theorem unLe32_bytes (v : U32) :
    unLe32 (v.extractLsb' 0 8) (v.extractLsb' 8 8) (v.extractLsb' 16 8) (v.extractLsb' 24 8) = v := by
  apply BitVec.eq_of_toNat_eq
  simp only [unLe32, BitVec.toNat_ofNat, BitVec.extractLsb'_toNat, Nat.shiftRight_eq_div_pow]
  omega

theorem le32_unLe32 (b0 b1 b2 b3 : Byte) : le32 (unLe32 b0 b1 b2 b3) = [b0, b1, b2, b3] := by
  simp only [le32, List.cons.injEq, and_true]
  refine ⟨?_, ?_, ?_, ?_⟩ <;>
  · apply BitVec.eq_of_toNat_eq
    simp only [unLe32, BitVec.toNat_ofNat, BitVec.extractLsb'_toNat, Nat.shiftRight_eq_div_pow]
    omega

/-! ### Buffers -/

theorem get_of_lt {wl off : Nat} {wb : List Byte} (draw : Nat → Byte) (hw : off < wl)
    (hb : off < wb.length) : get wl draw wb off = wb[off] := by
  simp [get, byteAt, hw, hb]

theorem get_of_le {wl off : Nat} (draw : Nat → Byte) (wb : List Byte) (h : wl ≤ off) :
    get wl draw wb off = draw off := by
  simp [get, Nat.not_lt.mpr h]

theorem dataRegion_getElem (d : List Byte) (i : Nat) (h : i < 60) :
    (dataRegion d)[i] = d.getD i 0 := by
  simp [dataRegion]

theorem take_dataRegion {d : List Byte} (h : d.length ≤ 60) :
    (dataRegion d).toList.take d.length = d := by
  apply List.ext_getElem
  · simp [h]
  · intro i h1 h2
    have : i < 60 := by omega
    simp [dataRegion, h2]

/-! ### The canonical form and the frame image -/

theorem length_payload {p : Packet} (h : p.dataLength.toNat ≤ 60) :
    p.payload.length = p.dataLength.toNat := by
  simp [Packet.payload, h]

theorem length_canon {p : Packet} (h : p.dataLength.toNat ≤ 60) :
    (canon p).length = 4 + p.dataLength.toNat := by
  simp [canon, length_payload h]; omega

theorem length_frameImage {p : Packet} (h : p.dataLength.toNat ≤ 60) :
    (frameImage p).length = 6 + p.dataLength.toNat := by
  simp [frameImage, length_canon h]; omega

/-- An encoded frame always has `WIRE_LEN` bytes. -/
@[simp] theorem length_encodePacket (wl : Nat) (draw : Nat → Byte) (p : Packet) :
    (encodePacket wl draw p).length = wl := by
  simp [encodePacket]; omega

/-! ### Built Packets -/

@[simp] theorem buildResponse_header (cid : Byte) (d : List Byte) :
    (buildResponse cid d).header = (Config.hdr0, Config.hdr1) := rfl

@[simp] theorem buildResponse_commandId (cid : Byte) (d : List Byte) :
    (buildResponse cid d).commandId = cid := rfl

@[simp] theorem buildResponse_dataLength (cid : Byte) (d : List Byte) :
    (buildResponse cid d).dataLength = BitVec.ofNat 8 d.length := rfl

@[simp] theorem buildResponse_data (cid : Byte) (d : List Byte) :
    (buildResponse cid d).data = dataRegion d := rfl

/-- The checksum covers the Packet's own canonical form, in which the checksum has no part. -/
theorem buildResponse_checksum (cid : Byte) (d : List Byte) :
    (buildResponse cid d).checksum = crc16 (canon (buildResponse cid d)) := rfl

theorem buildResponse_length {cid : Byte} {d : List Byte} (h : d.length ≤ 60) :
    (buildResponse cid d).dataLength.toNat = d.length := by
  simp; omega

theorem buildResponse_payload {cid : Byte} {d : List Byte} (h : d.length ≤ 60) :
    (buildResponse cid d).payload = d := by
  rw [Packet.payload, buildResponse_length h, buildResponse_data, take_dataRegion h]

theorem canon_buildResponse {cid : Byte} {d : List Byte} (h : d.length ≤ 60) :
    canon (buildResponse cid d)
      = [Config.hdr0, Config.hdr1, cid, BitVec.ofNat 8 d.length] ++ d := by
  rw [canon, buildResponse_payload h]; rfl

/-! ### The CAN record -/

@[simp] theorem length_paddedData (m : CanMessage) : (paddedData m).length = 8 := by
  simp [paddedData]; omega

@[simp] theorem length_toWire (m : CanMessage) : (toWire m).length = Config.canWireLen := by
  simp [toWire]

theorem fromWire_none (draw : Nat → Byte) {bytes : List Byte} {len : Nat} (h : len < 18) :
    fromWire draw bytes len = none := by
  simp [fromWire, h]

end Sys2Proof.Machine
end

