-- ==== Sys2Proof/Laws/State.lean ====
section
/-!
SUPPORT. One lemma per field of State per update, so that no later proof unfolds a record update.
-/

namespace Sys2Proof.Machine.State

/-! ### `fillSlot` -/

@[simp] theorem fillSlot_slotState (m : CanMessage) (s : State) : (s.fillSlot m).slotState = .full := rfl
@[simp] theorem fillSlot_slotMsg (m : CanMessage) (s : State) : (s.fillSlot m).slotMsg = m := rfl
@[simp] theorem fillSlot_tsCtr (m : CanMessage) (s : State) : (s.fillSlot m).tsCtr = s.tsCtr := rfl
@[simp] theorem fillSlot_deviceStatus (m : CanMessage) (s : State) : (s.fillSlot m).deviceStatus = s.deviceStatus := rfl
@[simp] theorem fillSlot_packetCounter (m : CanMessage) (s : State) : (s.fillSlot m).packetCounter = s.packetCounter := rfl
@[simp] theorem fillSlot_inputs (m : CanMessage) (s : State) : (s.fillSlot m).inputs = s.inputs := rfl
@[simp] theorem fillSlot_task (m : CanMessage) (s : State) : (s.fillSlot m).task = s.task := rfl
@[simp] theorem fillSlot_results (m : CanMessage) (s : State) : (s.fillSlot m).results = s.results := rfl
@[simp] theorem fillSlot_usbControlOut (m : CanMessage) (s : State) : (s.fillSlot m).usbControlOut = s.usbControlOut := rfl
@[simp] theorem fillSlot_usbCanOut (m : CanMessage) (s : State) : (s.fillSlot m).usbCanOut = s.usbCanOut := rfl
@[simp] theorem fillSlot_canOut (m : CanMessage) (s : State) : (s.fillSlot m).canOut = s.canOut := rfl
@[simp] theorem fillSlot_draws (m : CanMessage) (s : State) : (s.fillSlot m).draws = s.draws := rfl

/-! ### `emptySlot` -/

@[simp] theorem emptySlot_slotState (s : State) : (s.emptySlot).slotState = .empty := rfl
@[simp] theorem emptySlot_slotMsg (s : State) : (s.emptySlot).slotMsg = s.slotMsg := rfl
@[simp] theorem emptySlot_tsCtr (s : State) : (s.emptySlot).tsCtr = s.tsCtr := rfl
@[simp] theorem emptySlot_deviceStatus (s : State) : (s.emptySlot).deviceStatus = s.deviceStatus := rfl
@[simp] theorem emptySlot_packetCounter (s : State) : (s.emptySlot).packetCounter = s.packetCounter := rfl
@[simp] theorem emptySlot_inputs (s : State) : (s.emptySlot).inputs = s.inputs := rfl
@[simp] theorem emptySlot_task (s : State) : (s.emptySlot).task = s.task := rfl
@[simp] theorem emptySlot_results (s : State) : (s.emptySlot).results = s.results := rfl
@[simp] theorem emptySlot_usbControlOut (s : State) : (s.emptySlot).usbControlOut = s.usbControlOut := rfl
@[simp] theorem emptySlot_usbCanOut (s : State) : (s.emptySlot).usbCanOut = s.usbCanOut := rfl
@[simp] theorem emptySlot_canOut (s : State) : (s.emptySlot).canOut = s.canOut := rfl
@[simp] theorem emptySlot_draws (s : State) : (s.emptySlot).draws = s.draws := rfl

/-! ### `record` -/

@[simp] theorem record_slotState (r : Result) (s : State) : (s.record r).slotState = s.slotState := rfl
@[simp] theorem record_slotMsg (r : Result) (s : State) : (s.record r).slotMsg = s.slotMsg := rfl
@[simp] theorem record_tsCtr (r : Result) (s : State) : (s.record r).tsCtr = s.tsCtr := rfl
@[simp] theorem record_deviceStatus (r : Result) (s : State) : (s.record r).deviceStatus = s.deviceStatus := rfl
@[simp] theorem record_packetCounter (r : Result) (s : State) : (s.record r).packetCounter = s.packetCounter := rfl
@[simp] theorem record_inputs (r : Result) (s : State) : (s.record r).inputs = s.inputs := rfl
@[simp] theorem record_task (r : Result) (s : State) : (s.record r).task = s.task := rfl
@[simp] theorem record_results (r : Result) (s : State) : (s.record r).results = r :: s.results := rfl
@[simp] theorem record_usbControlOut (r : Result) (s : State) : (s.record r).usbControlOut = s.usbControlOut := rfl
@[simp] theorem record_usbCanOut (r : Result) (s : State) : (s.record r).usbCanOut = s.usbCanOut := rfl
@[simp] theorem record_canOut (r : Result) (s : State) : (s.record r).canOut = s.canOut := rfl
@[simp] theorem record_draws (r : Result) (s : State) : (s.record r).draws = s.draws := rfl

/-! ### `drawn` -/

@[simp] theorem drawn_slotState (s : State) : (s.drawn).slotState = s.slotState := rfl
@[simp] theorem drawn_slotMsg (s : State) : (s.drawn).slotMsg = s.slotMsg := rfl
@[simp] theorem drawn_tsCtr (s : State) : (s.drawn).tsCtr = s.tsCtr := rfl
@[simp] theorem drawn_deviceStatus (s : State) : (s.drawn).deviceStatus = s.deviceStatus := rfl
@[simp] theorem drawn_packetCounter (s : State) : (s.drawn).packetCounter = s.packetCounter := rfl
@[simp] theorem drawn_inputs (s : State) : (s.drawn).inputs = s.inputs := rfl
@[simp] theorem drawn_task (s : State) : (s.drawn).task = s.task := rfl
@[simp] theorem drawn_results (s : State) : (s.drawn).results = s.results := rfl
@[simp] theorem drawn_usbControlOut (s : State) : (s.drawn).usbControlOut = s.usbControlOut := rfl
@[simp] theorem drawn_usbCanOut (s : State) : (s.drawn).usbCanOut = s.usbCanOut := rfl
@[simp] theorem drawn_canOut (s : State) : (s.drawn).canOut = s.canOut := rfl
@[simp] theorem drawn_draws (s : State) : (s.drawn).draws = s.draws + 1 := rfl

/-! ### `writeControl` -/

@[simp] theorem writeControl_slotState (wb : List Byte) (s : State) : (s.writeControl wb).slotState = s.slotState := rfl
@[simp] theorem writeControl_slotMsg (wb : List Byte) (s : State) : (s.writeControl wb).slotMsg = s.slotMsg := rfl
@[simp] theorem writeControl_tsCtr (wb : List Byte) (s : State) : (s.writeControl wb).tsCtr = s.tsCtr := rfl
@[simp] theorem writeControl_deviceStatus (wb : List Byte) (s : State) : (s.writeControl wb).deviceStatus = s.deviceStatus := rfl
@[simp] theorem writeControl_packetCounter (wb : List Byte) (s : State) : (s.writeControl wb).packetCounter = s.packetCounter := rfl
@[simp] theorem writeControl_inputs (wb : List Byte) (s : State) : (s.writeControl wb).inputs = s.inputs := rfl
@[simp] theorem writeControl_task (wb : List Byte) (s : State) : (s.writeControl wb).task = s.task := rfl
@[simp] theorem writeControl_results (wb : List Byte) (s : State) : (s.writeControl wb).results = s.results := rfl
@[simp] theorem writeControl_usbControlOut (wb : List Byte) (s : State) : (s.writeControl wb).usbControlOut = wb :: s.usbControlOut := rfl
@[simp] theorem writeControl_usbCanOut (wb : List Byte) (s : State) : (s.writeControl wb).usbCanOut = s.usbCanOut := rfl
@[simp] theorem writeControl_canOut (wb : List Byte) (s : State) : (s.writeControl wb).canOut = s.canOut := rfl
@[simp] theorem writeControl_draws (wb : List Byte) (s : State) : (s.writeControl wb).draws = s.draws := rfl

/-! ### `writeCan` -/

@[simp] theorem writeCan_slotState (cb : List Byte) (s : State) : (s.writeCan cb).slotState = s.slotState := rfl
@[simp] theorem writeCan_slotMsg (cb : List Byte) (s : State) : (s.writeCan cb).slotMsg = s.slotMsg := rfl
@[simp] theorem writeCan_tsCtr (cb : List Byte) (s : State) : (s.writeCan cb).tsCtr = s.tsCtr := rfl
@[simp] theorem writeCan_deviceStatus (cb : List Byte) (s : State) : (s.writeCan cb).deviceStatus = s.deviceStatus := rfl
@[simp] theorem writeCan_packetCounter (cb : List Byte) (s : State) : (s.writeCan cb).packetCounter = s.packetCounter := rfl
@[simp] theorem writeCan_inputs (cb : List Byte) (s : State) : (s.writeCan cb).inputs = s.inputs := rfl
@[simp] theorem writeCan_task (cb : List Byte) (s : State) : (s.writeCan cb).task = s.task := rfl
@[simp] theorem writeCan_results (cb : List Byte) (s : State) : (s.writeCan cb).results = s.results := rfl
@[simp] theorem writeCan_usbControlOut (cb : List Byte) (s : State) : (s.writeCan cb).usbControlOut = s.usbControlOut := rfl
@[simp] theorem writeCan_usbCanOut (cb : List Byte) (s : State) : (s.writeCan cb).usbCanOut = cb :: s.usbCanOut := rfl
@[simp] theorem writeCan_canOut (cb : List Byte) (s : State) : (s.writeCan cb).canOut = s.canOut := rfl
@[simp] theorem writeCan_draws (cb : List Byte) (s : State) : (s.writeCan cb).draws = s.draws := rfl

/-! ### `sendFrame` -/

@[simp] theorem sendFrame_slotState (f : HwFrame) (s : State) : (s.sendFrame f).slotState = s.slotState := rfl
@[simp] theorem sendFrame_slotMsg (f : HwFrame) (s : State) : (s.sendFrame f).slotMsg = s.slotMsg := rfl
@[simp] theorem sendFrame_tsCtr (f : HwFrame) (s : State) : (s.sendFrame f).tsCtr = s.tsCtr := rfl
@[simp] theorem sendFrame_deviceStatus (f : HwFrame) (s : State) : (s.sendFrame f).deviceStatus = s.deviceStatus := rfl
@[simp] theorem sendFrame_packetCounter (f : HwFrame) (s : State) : (s.sendFrame f).packetCounter = s.packetCounter := rfl
@[simp] theorem sendFrame_inputs (f : HwFrame) (s : State) : (s.sendFrame f).inputs = s.inputs := rfl
@[simp] theorem sendFrame_task (f : HwFrame) (s : State) : (s.sendFrame f).task = s.task := rfl
@[simp] theorem sendFrame_results (f : HwFrame) (s : State) : (s.sendFrame f).results = s.results := rfl
@[simp] theorem sendFrame_usbControlOut (f : HwFrame) (s : State) : (s.sendFrame f).usbControlOut = s.usbControlOut := rfl
@[simp] theorem sendFrame_usbCanOut (f : HwFrame) (s : State) : (s.sendFrame f).usbCanOut = s.usbCanOut := rfl
@[simp] theorem sendFrame_canOut (f : HwFrame) (s : State) : (s.sendFrame f).canOut = f :: s.canOut := rfl
@[simp] theorem sendFrame_draws (f : HwFrame) (s : State) : (s.sendFrame f).draws = s.draws := rfl

/-! ### `setTask` -/

@[simp] theorem setTask_slotState (k : Option BridgeTask) (s : State) : (s.setTask k).slotState = s.slotState := rfl
@[simp] theorem setTask_slotMsg (k : Option BridgeTask) (s : State) : (s.setTask k).slotMsg = s.slotMsg := rfl
@[simp] theorem setTask_tsCtr (k : Option BridgeTask) (s : State) : (s.setTask k).tsCtr = s.tsCtr := rfl
@[simp] theorem setTask_deviceStatus (k : Option BridgeTask) (s : State) : (s.setTask k).deviceStatus = s.deviceStatus := rfl
@[simp] theorem setTask_packetCounter (k : Option BridgeTask) (s : State) : (s.setTask k).packetCounter = s.packetCounter := rfl
@[simp] theorem setTask_inputs (k : Option BridgeTask) (s : State) : (s.setTask k).inputs = s.inputs := rfl
@[simp] theorem setTask_task (k : Option BridgeTask) (s : State) : (s.setTask k).task = k := rfl
@[simp] theorem setTask_results (k : Option BridgeTask) (s : State) : (s.setTask k).results = s.results := rfl
@[simp] theorem setTask_usbControlOut (k : Option BridgeTask) (s : State) : (s.setTask k).usbControlOut = s.usbControlOut := rfl
@[simp] theorem setTask_usbCanOut (k : Option BridgeTask) (s : State) : (s.setTask k).usbCanOut = s.usbCanOut := rfl
@[simp] theorem setTask_canOut (k : Option BridgeTask) (s : State) : (s.setTask k).canOut = s.canOut := rfl
@[simp] theorem setTask_draws (k : Option BridgeTask) (s : State) : (s.setTask k).draws = s.draws := rfl

/-! ### `countPacket` -/

@[simp] theorem countPacket_slotState (s : State) : (s.countPacket).slotState = s.slotState := rfl
@[simp] theorem countPacket_slotMsg (s : State) : (s.countPacket).slotMsg = s.slotMsg := rfl
@[simp] theorem countPacket_tsCtr (s : State) : (s.countPacket).tsCtr = s.tsCtr := rfl
@[simp] theorem countPacket_deviceStatus (s : State) : (s.countPacket).deviceStatus = s.deviceStatus := rfl
@[simp] theorem countPacket_packetCounter (s : State) : (s.countPacket).packetCounter = s.packetCounter + 1 := rfl
@[simp] theorem countPacket_inputs (s : State) : (s.countPacket).inputs = s.inputs := rfl
@[simp] theorem countPacket_task (s : State) : (s.countPacket).task = s.task := rfl
@[simp] theorem countPacket_results (s : State) : (s.countPacket).results = s.results := rfl
@[simp] theorem countPacket_usbControlOut (s : State) : (s.countPacket).usbControlOut = s.usbControlOut := rfl
@[simp] theorem countPacket_usbCanOut (s : State) : (s.countPacket).usbCanOut = s.usbCanOut := rfl
@[simp] theorem countPacket_canOut (s : State) : (s.countPacket).canOut = s.canOut := rfl
@[simp] theorem countPacket_draws (s : State) : (s.countPacket).draws = s.draws := rfl

/-! ### `countFrame` -/

@[simp] theorem countFrame_slotState (s : State) : (s.countFrame).slotState = s.slotState := rfl
@[simp] theorem countFrame_slotMsg (s : State) : (s.countFrame).slotMsg = s.slotMsg := rfl
@[simp] theorem countFrame_tsCtr (s : State) : (s.countFrame).tsCtr = s.tsCtr + 1 := rfl
@[simp] theorem countFrame_deviceStatus (s : State) : (s.countFrame).deviceStatus = s.deviceStatus := rfl
@[simp] theorem countFrame_packetCounter (s : State) : (s.countFrame).packetCounter = s.packetCounter := rfl
@[simp] theorem countFrame_inputs (s : State) : (s.countFrame).inputs = s.inputs := rfl
@[simp] theorem countFrame_task (s : State) : (s.countFrame).task = s.task := rfl
@[simp] theorem countFrame_results (s : State) : (s.countFrame).results = s.results := rfl
@[simp] theorem countFrame_usbControlOut (s : State) : (s.countFrame).usbControlOut = s.usbControlOut := rfl
@[simp] theorem countFrame_usbCanOut (s : State) : (s.countFrame).usbCanOut = s.usbCanOut := rfl
@[simp] theorem countFrame_canOut (s : State) : (s.countFrame).canOut = s.canOut := rfl
@[simp] theorem countFrame_draws (s : State) : (s.countFrame).draws = s.draws := rfl

/-! ### `setStatus` -/

@[simp] theorem setStatus_slotState (v : Byte) (s : State) : (s.setStatus v).slotState = s.slotState := rfl
@[simp] theorem setStatus_slotMsg (v : Byte) (s : State) : (s.setStatus v).slotMsg = s.slotMsg := rfl
@[simp] theorem setStatus_tsCtr (v : Byte) (s : State) : (s.setStatus v).tsCtr = s.tsCtr := rfl
@[simp] theorem setStatus_deviceStatus (v : Byte) (s : State) : (s.setStatus v).deviceStatus = v := rfl
@[simp] theorem setStatus_packetCounter (v : Byte) (s : State) : (s.setStatus v).packetCounter = s.packetCounter := rfl
@[simp] theorem setStatus_inputs (v : Byte) (s : State) : (s.setStatus v).inputs = s.inputs := rfl
@[simp] theorem setStatus_task (v : Byte) (s : State) : (s.setStatus v).task = s.task := rfl
@[simp] theorem setStatus_results (v : Byte) (s : State) : (s.setStatus v).results = s.results := rfl
@[simp] theorem setStatus_usbControlOut (v : Byte) (s : State) : (s.setStatus v).usbControlOut = s.usbControlOut := rfl
@[simp] theorem setStatus_usbCanOut (v : Byte) (s : State) : (s.setStatus v).usbCanOut = s.usbCanOut := rfl
@[simp] theorem setStatus_canOut (v : Byte) (s : State) : (s.setStatus v).canOut = s.canOut := rfl
@[simp] theorem setStatus_draws (v : Byte) (s : State) : (s.setStatus v).draws = s.draws := rfl

/-! ### `clearDevice` -/

@[simp] theorem clearDevice_slotState (s : State) : (s.clearDevice).slotState = s.slotState := rfl
@[simp] theorem clearDevice_slotMsg (s : State) : (s.clearDevice).slotMsg = s.slotMsg := rfl
@[simp] theorem clearDevice_tsCtr (s : State) : (s.clearDevice).tsCtr = s.tsCtr := rfl
@[simp] theorem clearDevice_deviceStatus (s : State) : (s.clearDevice).deviceStatus = 0 := rfl
@[simp] theorem clearDevice_packetCounter (s : State) : (s.clearDevice).packetCounter = 0 := rfl
@[simp] theorem clearDevice_inputs (s : State) : (s.clearDevice).inputs = s.inputs := rfl
@[simp] theorem clearDevice_task (s : State) : (s.clearDevice).task = s.task := rfl
@[simp] theorem clearDevice_results (s : State) : (s.clearDevice).results = s.results := rfl
@[simp] theorem clearDevice_usbControlOut (s : State) : (s.clearDevice).usbControlOut = s.usbControlOut := rfl
@[simp] theorem clearDevice_usbCanOut (s : State) : (s.clearDevice).usbCanOut = s.usbCanOut := rfl
@[simp] theorem clearDevice_canOut (s : State) : (s.clearDevice).canOut = s.canOut := rfl
@[simp] theorem clearDevice_draws (s : State) : (s.clearDevice).draws = s.draws := rfl

/-! ### `hardReset` -/

@[simp] theorem hardReset_slotState (s : State) : (s.hardReset).slotState = .empty := rfl
@[simp] theorem hardReset_slotMsg (s : State) : (s.hardReset).slotMsg = drawMessage s.draw := rfl
@[simp] theorem hardReset_tsCtr (s : State) : (s.hardReset).tsCtr = 0 := rfl
@[simp] theorem hardReset_deviceStatus (s : State) : (s.hardReset).deviceStatus = 0 := rfl
@[simp] theorem hardReset_packetCounter (s : State) : (s.hardReset).packetCounter = 0 := rfl
@[simp] theorem hardReset_inputs (s : State) : (s.hardReset).inputs = s.inputs := rfl
@[simp] theorem hardReset_task (s : State) : (s.hardReset).task = none := rfl
@[simp] theorem hardReset_results (s : State) : (s.hardReset).results = s.results := rfl
@[simp] theorem hardReset_usbControlOut (s : State) : (s.hardReset).usbControlOut = s.usbControlOut := rfl
@[simp] theorem hardReset_usbCanOut (s : State) : (s.hardReset).usbCanOut = s.usbCanOut := rfl
@[simp] theorem hardReset_canOut (s : State) : (s.hardReset).canOut = s.canOut := rfl
@[simp] theorem hardReset_draws (s : State) : (s.hardReset).draws = s.draws + 1 := rfl

/-! ### Reading the last result and the next draw -/

@[simp] theorem record_lastResult (r : Result) (s : State) : (s.record r).lastResult = some r := rfl

theorem draw_eq (s : State) (off : Nat) : s.draw off = Config.drawByte s.draws off := rfl

@[simp] theorem setTask_draw (k : Option BridgeTask) (s : State) : (s.setTask k).draw = s.draw := rfl

@[simp] theorem record_draw (r : Result) (s : State) : (s.record r).draw = s.draw := rfl

end Sys2Proof.Machine.State
end

