-- ==== Sys2Proof/Laws/Ops.lean ====
section
/-!
SUPPORT. What the shared operations on State and the step do, said once.
-/

namespace Sys2Proof.Machine

/-! ### Sequencing -/

@[simp] theorem andThen_next (s : State) (f : State → Out) : andThen (.next s) f = f s := rfl

@[simp] theorem andThen_refused (r : Refusal) (f : State → Out) :
    andThen (.refused r) f = .refused r := rfl

/-- A sequence ends in a next state only through a next state of its first part. -/
theorem andThen_eq_next {o : Out} {f : State → Out} {t : State} :
    andThen o f = .next t ↔ ∃ s, o = .next s ∧ f s = .next t := by
  cases o with
  | next s => simp
  | fault r => exact nomatch r
  | refused r => simp

/-! ### The two ways CMD.PROCESS answers -/

/-- All that steps 4 and 5 can do. -/
theorem answer_eq_next {cid : Byte} {d : List Byte} {s t : State} :
    answer cid d s = .next t ↔ t = s.countPacket.record (.packet (buildResponse cid d)) := by
  simp [answer, eq_comm]

/-- All that the protocol-error path can do. -/
theorem takeProtocolError_eq_next {e : ValidationError} {s t : State} :
    takeProtocolError e s = .next t ↔
      t = s.record (.packet (buildResponse Config.errCmdId [resultCode (kindOf e)])) := by
  simp [takeProtocolError, eq_comm]

/-! ### The relay -/

theorem execRlyTake_full {s : State} (h : s.slotState = .full) :
    execRlyTake s = .next (s.emptySlot.record (.taken (some s.slotMsg))) := by
  simp [execRlyTake, h]

theorem execRlyTake_empty {s : State} (h : s.slotState = .empty) :
    execRlyTake s = .next (s.record (.taken none)) := by
  simp [execRlyTake, h]

/-! ### The bridge contract -/

/-- All that an operation of a contract can do: the operation, and then the task its result asks for. -/
theorem inContract_eq_next {o : Out} {t : State} :
    inContract o = .next t ↔ ∃ s, o = .next s ∧ t = s.setTask (s.lastResult.bind nextTask) := by
  rw [inContract, andThen_eq_next]
  simp [eq_comm]

@[simp] theorem inContract_next (s : State) :
    inContract (.next s) = .next (s.setTask (s.lastResult.bind nextTask)) := rfl

@[simp] theorem inContract_refused (r : Refusal) : inContract (.refused r) = .refused r := rfl

/-- All that a frame arrival does, whatever M is in the middle of. -/
theorem frameArrives_eq (f : HwFrame) (s : State) :
    frameArrives f s
      = .next ((((s.record (.received (rxFrame f))).fillSlot
          { rxFrame f with timestamp := s.tsCtr }).countFrame).record .done) := rfl

theorem runMainline_none {s : State} (h : s.task = none) : runMainline s = .next s := by
  simp [runMainline, h]

theorem runMainline_some {s : State} {k : BridgeTask} (h : s.task = some k) :
    runMainline s = runTask k (s.setTask none) := by
  simp [runMainline, h]

/-! ### The step -/

theorem step_idle {s : State} (h : s.inputs = []) (ht : s.task = none) : step s = .next s := by
  simp [step, stepInput, h, runMainline_none ht]

/-- An element runs when M is in no contract or does not have to be free for it. -/
theorem step_cons {s : State} {x : Input} {rest : List Input} (h : s.inputs = x :: rest)
    (ht : s.task = none ∨ needsMainline x = false) :
    step s = runInput x { s with inputs := rest } := by
  rcases ht with ht | ht <;> simp [step, stepInput, h, ht]

/-- M goes on with its contract when nothing is issued any more, or what comes next is M's own. -/
theorem step_task {s : State} {k : BridgeTask} (ht : s.task = some k)
    (h : ∀ x rest, s.inputs = x :: rest → needsMainline x = true) :
    step s = runTask k (s.setTask none) := by
  rw [← runMainline_some ht, step, stepInput]
  cases hi : s.inputs with
  | nil => rfl
  | cons x rest => simp [ht, h x rest hi]

/-- All that a step can be: M goes on (or waits), or the first element runs. -/
theorem step_cases (s : State) :
    step s = runMainline s ∨
      ∃ x rest, s.inputs = x :: rest ∧ (s.task = none ∨ needsMainline x = false) ∧
        step s = runInput x { s with inputs := rest } := by
  rw [step, stepInput]
  cases hi : s.inputs with
  | nil => exact .inl rfl
  | cons x rest =>
    cases ht : s.task <;> cases hx : needsMainline x <;> simp_all

@[simp] theorem withFetchWord_inputs (s : State) (nbits w : Nat) :
    (s.withFetchWord nbits w).inputs = tableInput nbits w :: s.inputs := rfl

/-- The step after a table word is placed runs exactly that word. -/
theorem step_withFetchWord (s : State) (nbits w : Nat) :
    step (s.withFetchWord nbits w) = runInput (tableInput nbits w) (s.setTask none) := rfl

end Sys2Proof.Machine
end

