-- ==== Sys2Proof/Laws/PerInstr.lean ====
section
/-!
SUPPORT. One lemma per constructor of Instr: an encoded operation's selector is one of the fourteen of
spec/00_scope.md rule R8, an encoded control frame has `WIRE_LEN` bytes.
-/

namespace Sys2Proof.Laws.Selector

open Sys2Proof.Machine

/-- The encoded form of an instruction is one the spec's tables have. -/
def Statement (i : Instr) : Prop :=
  match encode i with
  | .op sel _ => sel.toNat < 14
  | .frame wb => wb.length = Config.wireLen

theorem ofSelector {i : Instr} {sel : BitVec 4} {operands : Operands}
    (h : encode i = .op sel operands) (hs : sel.toNat < 14) : Statement i := by
  rw [Statement, h]; exact hs

theorem crc16 (bytes : List Byte) : Statement (.crc16 bytes) :=
  ofSelector rfl (of_decide_eq_true rfl)
theorem pktEncode (p : Packet) : Statement (.pktEncode p) :=
  ofSelector rfl (of_decide_eq_true rfl)
theorem pktDecode (wb : List Byte) : Statement (.pktDecode wb) :=
  ofSelector rfl (of_decide_eq_true rfl)
theorem pktValidate (p : Packet) : Statement (.pktValidate p) :=
  ofSelector rfl (of_decide_eq_true rfl)
theorem pktBuildResponse (req : Option Packet) (cid : Byte) (d : List Byte) :
    Statement (.pktBuildResponse req cid d) :=
  ofSelector rfl (of_decide_eq_true rfl)
theorem cmdProcess (wb : List Byte) : Statement (.cmdProcess wb) :=
  ofSelector rfl (of_decide_eq_true rfl)
theorem canToWire (m : CanMessage) : Statement (.canToWire m) :=
  ofSelector rfl (of_decide_eq_true rfl)
theorem canFromWire (bytes : List Byte) (len : Nat) : Statement (.canFromWire bytes len) :=
  ofSelector rfl (of_decide_eq_true rfl)
theorem canIdEncode (id : U32) : Statement (.canIdEncode id) :=
  ofSelector rfl (of_decide_eq_true rfl)
theorem canIdDecode (idField : U32) (ide : Bool) : Statement (.canIdDecode idField ide) :=
  ofSelector rfl (of_decide_eq_true rfl)
theorem canTxFrame (m : CanMessage) : Statement (.canTxFrame m) :=
  ofSelector rfl (of_decide_eq_true rfl)
theorem canRxFrame (f : HwFrame) : Statement (.canRxFrame f) :=
  ofSelector rfl (of_decide_eq_true rfl)
theorem rlyPush (m : CanMessage) : Statement (.rlyPush m) :=
  ofSelector rfl (of_decide_eq_true rfl)
theorem rlyTake : Statement .rlyTake :=
  ofSelector rfl (of_decide_eq_true rfl)
theorem read (payload : List Byte) : Statement (.read payload) :=
  length_encodePacket _ _ _
theorem write (payload : List Byte) : Statement (.write payload) :=
  length_encodePacket _ _ _
theorem status (payload : List Byte) : Statement (.status payload) :=
  length_encodePacket _ _ _
theorem reset (payload : List Byte) : Statement (.reset payload) :=
  length_encodePacket _ _ _
theorem version (payload : List Byte) : Statement (.version payload) :=
  length_encodePacket _ _ _
theorem echoString (payload : List Byte) : Statement (.echoString payload) :=
  length_encodePacket _ _ _
theorem unknownCmd (cid : Byte) (payload : List Byte) : Statement (.unknownCmd cid payload) :=
  length_encodePacket _ _ _
theorem protocolErrorRsp (e : ValidationError) : Statement (.protocolErrorRsp e) :=
  length_encodePacket _ _ _

end Sys2Proof.Laws.Selector
end

