-- ==== Sys2Proof/Laws/Runs.lean ====
section
/-!
SUPPORT. How sequences of steps and of operations are cut into parts.
-/

namespace Sys2Proof.Machine

/-- Sequencing is associative. -/
theorem andThen_assoc (o : Out) (f g : State → Out) :
    andThen (andThen o f) g = andThen o fun s => andThen (f s) g := by
  cases o <;> rfl

@[simp] theorem runSteps_one (s : State) : runSteps 1 s = step s := by
  cases h : step s <;> simp [runSteps, andThen, h]

theorem runSteps_add (a b : Nat) (s : State) :
    runSteps (a + b) s = andThen (runSteps a s) (runSteps b) := by
  induction a generalizing s with
  | zero => simp [runSteps]
  | succ a ih => simp only [Nat.succ_add, runSteps, andThen_assoc, ← ih]

theorem runOps_append (a b : List Instr) (s : State) :
    runOps (a ++ b) s = andThen (runOps a s) (runOps b) := by
  induction a generalizing s with
  | nil => rfl
  | cons i is ih => simp only [List.cons_append, runOps, andThen_assoc, ← ih]

@[simp] theorem landing_nil (rest : List Input) : landing [] rest = rest := rfl

@[simp] theorem landing_cons (f : HwFrame) (fs : List HwFrame) (rest : List Input) :
    landing (f :: fs) rest = .frameArrival f :: landing fs rest := rfl

end Sys2Proof.Machine
end

