-- ==== Sys2Proof/Tests/Slice0.lean ====
section
/-!
SUPPORT. Tests. Every expected value is from spec/95_test_vectors.md (its row is named beside the test)
or written out from the encoding tables of spec/30_encoding.md; none is the model's own answer. Then
one witness for every statement that has hypotheses.
-/

namespace Sys2Proof.Tests

set_option Elab.async false

open Sys2Proof Sys2Proof.Machine

/-! ### Helpers -/

/-- The start state of the table of section 2.3. -/
def busy : State := { State.reset with deviceStatus := 0x42, packetCounter := 7 }

/-- The bytes `first, first + 1, …`, `n` of them. -/
def run (first n : Nat) : List Byte := (List.range n).map fun i => BitVec.ofNat 8 (first + i)

/-- A Packet with this payload. -/
def pkt (h : Byte × Byte) (cid len : Byte) (d : List Byte) (c : U16) : Packet :=
  { header := h, commandId := cid, dataLength := len, data := dataRegion d, checksum := c }

/-- A message; the data bytes past those given are zero. -/
def msg (ts id : U32) (d : List Byte) (len props : Byte) : CanMessage :=
  { timestamp := ts, id := id, data := Vector.ofFn fun i => d.getD i.val 0, length := len,
    properties := props }

/-- A frame of the CAN controller. -/
def hwf (f : U32) (ide : Bool) (dlc : Byte) (d : List Byte) : HwFrame :=
  { idField := f, ide := ide, dlc := dlc, data := Vector.ofFn fun i => d.getD i.val 0 }

/-- The newest result. -/
def resultOf : Out → Option Result
  | .next s => s.lastResult
  | .fault r => nomatch r
  | .refused _ => none

/-- The wire image of the newest result, a response Packet, with `deviceStatus` and `packetCounter`. -/
def replyOf : Out → Option (List Byte × Byte × U32)
  | .next s =>
    match s.lastResult with
    | some (.packet r) => some (frameImage r, s.deviceStatus, s.packetCounter)
    | _ => none
  | .fault r => nomatch r
  | .refused _ => none

/-- The relay's state after an operation. -/
def relayOf : Out → Option (SlotState × U32 × U32)
  | .next s => some (s.slotState, s.slotMsg.timestamp, s.tsCtr)
  | .fault r => nomatch r
  | .refused _ => none

/-- The refusal, if it is one. -/
def refusalOf : Out → Option Refusal
  | .next _ => none
  | .fault r => nomatch r
  | .refused r => some r

/-- The first bytes of the newest result, an encoded buffer. -/
def wireOf (n : Nat) : Out → Option (List Byte)
  | .next s =>
    match s.lastResult with
    | some (.wire wb) => some (wb.take n)
    | _ => none
  | .fault r => nomatch r
  | .refused _ => none

/-- What the decoder reads from a control frame that begins so. -/
def read (bs : List Byte) : Instr := decodeFrame (Config.drawByte 0) (padded bs)

/-- CMD.PROCESS of a frame that begins so, from `busy`. -/
def process (bs : List Byte) : Out := exec (.cmdProcess (padded bs)) busy

/-- The Packet of WRITE [42] (rows K2 to K4). -/
def write42 : Packet := pkt (0xAA, 0x55) 0x02 1 [0x42] 0x816F

/-- Message T2. -/
def t2 : CanMessage := msg 0x01020304 0x1ABCDE [0x11, 0x22, 0x33, 0x44, 0x55, 0x66, 0x77, 0x88] 8 1

/-- Message T4. -/
def t4 : CanMessage := msg 2 0x800 [1, 2, 3, 4, 5, 6, 7, 8] 9 1

/-- A full relay as a push leaves it. -/
def fullRelay : State :=
  { State.reset with slotState := .full, slotMsg := msg 4 0xA [] 0 0, tsCtr := 5 }

/-! ### WellFormed refuses an ill-formed term for each of its checks -/

theorem test_illformed_encode :
    (Instr.pktEncode (pkt (0xAA, 0x55) 1 61 [] 0)).wellFormed = false := by decide
theorem test_illformed_decode : (Instr.pktDecode (run 0 63)).wellFormed = false := by decide
theorem test_illformed_process : (Instr.cmdProcess (run 0 65)).wellFormed = false := by
  decide +kernel
theorem test_illformed_build :
    (Instr.pktBuildResponse none 1 (run 0 61)).wellFormed = false := by decide
theorem test_illformed_from_wire : (Instr.canFromWire [0x00] 2).wellFormed = false := by decide
theorem test_illformed_tx : (Instr.canTxFrame t4).wellFormed = false := by decide
theorem test_illformed_read : (Instr.read (run 0 61)).wellFormed = false := by decide
theorem test_illformed_write : (Instr.write (run 0 61)).wellFormed = false := by decide
theorem test_illformed_status : (Instr.status (run 0 61)).wellFormed = false := by decide
theorem test_illformed_reset : (Instr.reset (run 0 61)).wellFormed = false := by decide
theorem test_illformed_version : (Instr.version (run 0 61)).wellFormed = false := by decide
theorem test_illformed_echo : (Instr.echoString (run 0 61)).wellFormed = false := by decide
theorem test_illformed_unknown_payload :
    (Instr.unknownCmd 0x99 (run 0 61)).wellFormed = false := by decide
theorem test_illformed_unknown_id : (Instr.unknownCmd 0x06 []).wellFormed = false := by decide

/-! ### Decoding: words from the tables of 00_scope.md R8 (selectors) and section 2.1 (frames) -/

theorem test_decode_selectors :
    decodeOp 0x0 (.bytes [0xAA]) = .ok (.crc16 [0xAA]) ∧
    decodeOp 0x1 (.packet write42) = .ok (.pktEncode write42) ∧
    decodeOp 0x2 (.buffer (run 0 64)) = .ok (.pktDecode (run 0 64)) ∧
    decodeOp 0x3 (.packet write42) = .ok (.pktValidate write42) ∧
    decodeOp 0x4 (.response none 0x05 [0x00]) = .ok (.pktBuildResponse none 0x05 [0x00]) ∧
    decodeOp 0x5 (.buffer (run 0 64)) = .ok (.cmdProcess (run 0 64)) ∧
    decodeOp 0x6 (.message t2) = .ok (.canToWire t2) ∧
    decodeOp 0x7 (.record (run 0 18) 18) = .ok (.canFromWire (run 0 18) 18) :=
  ⟨rfl, rfl, rfl, rfl, rfl, rfl, rfl, rfl⟩

theorem test_decode_selectors_upper :
    decodeOp 0x8 (.rawId 0x123) = .ok (.canIdEncode 0x123) ∧
    decodeOp 0x9 (.hwId 0x24600000 true) = .ok (.canIdDecode 0x24600000 true) ∧
    decodeOp 0xA (.message t2) = .ok (.canTxFrame t2) ∧
    decodeOp 0xB (.frame HwFrame.zero) = .ok (.canRxFrame HwFrame.zero) ∧
    decodeOp 0xC (.message t2) = .ok (.rlyPush t2) ∧
    decodeOp 0xD .none = .ok .rlyTake ∧
    decodeOp 0xE .none = .reject .noOperation ∧
    decodeOp 0xF (.message t2) = .reject .noOperation ∧
    decodeOp 0xD (.message t2) = .reject .operandShape :=
  ⟨rfl, rfl, rfl, rfl, rfl, rfl, rfl, rfl, rfl⟩

theorem test_decode_read : read [0xAA, 0x55, 0x01, 0x00, 0x12, 0x80] = .read [] := by
  decide +kernel
theorem test_decode_write : read [0xAA, 0x55, 0x02, 0x01, 0x42, 0x6F, 0x81] = .write [0x42] := by
  decide +kernel
theorem test_decode_status : read [0xAA, 0x55, 0x03, 0x00, 0x70, 0xE6] = .status [] := by
  decide +kernel
theorem test_decode_reset : read [0xAA, 0x55, 0x04, 0x00, 0xE7, 0x7F] = .reset [] := by
  decide +kernel
theorem test_decode_version : read [0xAA, 0x55, 0x05, 0x00, 0xD6, 0x4C] = .version [] := by
  decide +kernel
theorem test_decode_echo :
    read [0xAA, 0x55, 0x06, 0x02, 0x48, 0x49, 0x2E, 0x4B] = .echoString [0x48, 0x49] := by
  decide +kernel
theorem test_decode_unknown :
    read [0xAA, 0x55, 0x99, 0x00, 0x50, 0x11] = .unknownCmd 0x99 [] ∧
    read [0xAA, 0x55, 0xFF, 0x00, 0xDC, 0xB0] = .unknownCmd 0xFF [] := by decide +kernel
/-- Rows M17, M18, M19, M20, M21. -/
theorem test_decode_errors :
    read [0xAA, 0x55, 0x02, 0x01, 0x43, 0x6F, 0x81] = .protocolErrorRsp .crcMismatch ∧
    read [0xAB, 0x55, 0x02, 0x01, 0x42, 0x6F, 0x81] = .protocolErrorRsp .badHeader ∧
    read [0xAA, 0x55, 0x01, 0x3D] = .protocolErrorRsp .badLength ∧
    read [0x00, 0x00, 0x01, 0xC8] = .protocolErrorRsp .badLength ∧
    read [0xAA, 0x55, 0x01, 0x00, 0x80, 0x12] = .protocolErrorRsp .crcMismatch := by decide +kernel

/-- The encoder writes the frames of the tables (section 2.1, rows M2, M4, M9). -/
theorem test_encode_frames :
    encode (.version []) = .frame (padded [0xAA, 0x55, 0x05, 0x00, 0xD6, 0x4C]) ∧
    encode (.read [0x09, 0x09, 0x09])
      = .frame (padded [0xAA, 0x55, 0x01, 0x03, 0x09, 0x09, 0x09, 0xB7, 0x70]) ∧
    encode (.write [0x11, 0x22])
      = .frame (padded [0xAA, 0x55, 0x02, 0x02, 0x11, 0x22, 0x35, 0xE8]) := by decide +kernel

/-- The words of spec/opcode_table.json. -/
theorem test_table_words :
    decodeTableWord 8 0xD = some .rlyTake ∧ decodeTableWord 8 0x8 = some (.canIdEncode 0) ∧
    decodeTableWord 8 0xF = none ∧
    decodeTableWord 32 0xAA550100 = some (.read []) ∧
    decodeTableWord 32 0xAA550201 = some (.write [0x00]) ∧
    decodeTableWord 32 0xAA550600 = some (.echoString []) ∧
    decodeTableWord 32 0xAA559900 = some (.unknownCmd 0x99 []) ∧
    decodeTableWord 32 0xAA55FF01 = some (.protocolErrorRsp .crcMismatch) := by decide +kernel

/-! ### CRC16 (section 2.1) -/

theorem test_crc_check_value :
    resultOf (exec (.crc16 [0x31, 0x32, 0x33, 0x34, 0x35, 0x36, 0x37, 0x38, 0x39]) busy)
      = some (.crc 0x29B1) := by decide +kernel
theorem test_crc_step : crcStep 0x0000 0x80 = 0x9188 ∧ crcStep 0xFFFF 0xAA = 0xF550 := by
  decide +kernel

/-! ### The Packet Codec (section 2.2) -/

/-- Row K4: the Packet's own header and checksum are written as they stand. -/
theorem test_encode_own_header :
    wireOf 7 (exec (.pktEncode (pkt (0x12, 0x34) 0x02 1 [0x42] 0x816F)) busy)
      = some [0x12, 0x34, 0x02, 0x01, 0x42, 0x6F, 0x81] := by decide +kernel
/-- Row K6: the high checksum byte is dropped. -/
theorem test_encode_cut :
    wireOf 70 (exec (.pktEncode (pkt (0xAA, 0x55) 0x06 59 (run 1 59) 0xD423)) busy)
      = some ([0xAA, 0x55, 0x06, 0x3B] ++ run 1 59 ++ [0x23]) := by decide +kernel
/-- Row K10: decode does not check the header. -/
theorem test_decode_other_header :
    resultOf (exec (.pktDecode (padded [0xAB, 0x55, 0x02, 0x01, 0x42, 0x6F, 0x81])) busy)
      = some (.decoded (.ok (pkt (0xAB, 0x55) 0x02 1 [0x42] 0x816F))) := by decide +kernel
/-- Rows K12, K13. -/
theorem test_decode_lengths :
    resultOf (exec (.pktDecode (padded [0xAA, 0x55, 0x01, 0x3D])) busy)
      = some (.decoded (.err .malformedLength)) ∧
    resultOf (exec (.pktDecode (padded [0xAA, 0x55, 0x01, 0xFF])) busy)
      = some (.decoded (.err .malformedLength)) := by decide +kernel
/-- Rows K16, K17, K18, K19. -/
theorem test_validate_order :
    validatePacket (pkt (0xAA, 0x55) 0x05 0 [] 0xD64C) = .err .crcMismatch ∧
    validatePacket (pkt (0xAB, 0x55) 0x02 1 [0x42] 0x2B3E) = .err .badHeader ∧
    validatePacket (pkt (0xAB, 0x55) 0x02 61 [] 0) = .err .badHeader ∧
    validatePacket (pkt (0xAA, 0x55) 0x02 61 [] 0) = .err .badLength := by decide +kernel
/-- Row K15. -/
theorem test_validate_ok :
    resultOf (exec (.pktValidate (pkt (0xAA, 0x55) 0x05 0 [] 0x4CD6)) busy)
      = some (.validated .ok) := by decide +kernel
/-- Row K21. -/
theorem test_build_response :
    resultOf (exec (.pktBuildResponse none 0x01 [0x00, 0x42]) busy)
      = some (.packet (pkt (0xAA, 0x55) 0x01 2 [0x00, 0x42] 0x2F0D)) := by decide +kernel
/-- Rows K8, K24. -/
theorem test_oversized_refused :
    refusalOf (exec (.pktEncode (pkt (0xAA, 0x55) 0x01 61 [] 0)) busy) = some .encodeOversized ∧
    refusalOf (exec (.pktBuildResponse none 0x01 (run 0 61)) busy) = some .responseOversized := by
  decide +kernel

/-! ### The Command Processor (section 2.3) -/

/-- Rows M1, M2. -/
theorem test_read :
    replyOf (exec (.read []) busy) = some ([0xAA, 0x55, 0x01, 0x02, 0x00, 0x42, 0x0D, 0x2F], 0x42, 8) ∧
    replyOf (process [0xAA, 0x55, 0x01, 0x03, 0x09, 0x09, 0x09, 0xB7, 0x70])
      = some ([0xAA, 0x55, 0x01, 0x02, 0x00, 0x42, 0x0D, 0x2F], 0x42, 8) := by decide +kernel
/-- Rows M4, M5. -/
theorem test_write :
    replyOf (exec (.write [0x11, 0x22]) busy)
      = some ([0xAA, 0x55, 0x02, 0x01, 0x00, 0xE9, 0xE9], 0x11, 8) ∧
    replyOf (exec (.write []) busy)
      = some ([0xAA, 0x55, 0x02, 0x01, 0x01, 0xC8, 0xF9], 0x42, 8) := by decide +kernel
/-- Row M23: the byte order, and P1 step 3: the report before the increment. -/
theorem test_status :
    (replyOf (exec (.status []) { busy with packetCounter := 0x01020304 })).map
        (fun r => ((r.1.drop 4).take 6, r.2.2)) = some ([0x00, 0x42, 4, 3, 2, 1], 0x01020305) ∧
    replyOf (exec (.status []) { busy with packetCounter := 2 })
      = some ([0xAA, 0x55, 0x03, 0x06, 0x00, 0x42, 0x02, 0, 0, 0, 0xF9, 0x02], 0x42, 3) := by
  decide +kernel
/-- Row M22: the wrap. -/
theorem test_status_wraps :
    (replyOf (exec (.status []) { busy with packetCounter := 0xFFFFFFFF })).map
        (fun r => ((r.1.drop 4).take 6, r.2.2)) = some ([0x00, 0x42, 0xFF, 0xFF, 0xFF, 0xFF], 0) := by
  decide +kernel
/-- Row M7. -/
theorem test_reset :
    replyOf (exec (.reset []) busy) = some ([0xAA, 0x55, 0x04, 0x01, 0x00, 0x49, 0x5B], 0, 1) := by
  decide +kernel
/-- Row M8, but for the parameters. -/
theorem test_version :
    (replyOf (exec (.version []) busy)).map (fun r => (r.1.take 5, r.2))
      = some ([0xAA, 0x55, 0x05, 0x04, 0x00], 0x42, 8) := by decide +kernel
/-- Rows M9, M10. -/
theorem test_echo :
    replyOf (exec (.echoString [0x48, 0x49]) busy)
      = some ([0xAA, 0x55, 0x06, 0x03, 0x00, 0x48, 0x49, 0xCB, 0xFF], 0x42, 8) ∧
    replyOf (exec (.echoString []) busy)
      = some ([0xAA, 0x55, 0x06, 0x01, 0x01, 0x08, 0x25], 0x42, 8) := by decide +kernel
/-- Rows M12, M13. -/
theorem test_echo_limits :
    (replyOf (exec (.echoString (run 1 58)) busy)).map (fun r => r.1.drop 62)
      = some [0x3A, 0xD4, 0x3C] ∧
    refusalOf (exec (.echoString (run 1 60)) busy) = some .echoOversized := by decide +kernel
/-- Rows M14, M16. -/
theorem test_unknown :
    replyOf (exec (.unknownCmd 0x99 []) busy)
      = some ([0xAA, 0x55, 0x99, 0x01, 0x02, 0x63, 0x41], 0x42, 8) ∧
    replyOf (process [0xAA, 0x55, 0xFF, 0x00, 0xDC, 0xB0])
      = some ([0xAA, 0x55, 0xFF, 0x01, 0x02, 0xA8, 0x68], 0x42, 8) := by decide +kernel
/-- Row M17, as a row and through CMD.PROCESS. -/
theorem test_protocol_error :
    replyOf (exec (.protocolErrorRsp .crcMismatch) busy)
      = some ([0xAA, 0x55, 0xFF, 0x01, 0x03, 0x89, 0x78], 0x42, 7) ∧
    replyOf (process [0xAA, 0x55, 0x02, 0x01, 0x43, 0x6F, 0x81])
      = some ([0xAA, 0x55, 0xFF, 0x01, 0x03, 0x89, 0x78], 0x42, 7) := by decide +kernel
/-- Row M3 through CMD.PROCESS. -/
theorem test_process :
    replyOf (process [0xAA, 0x55, 0x02, 0x01, 0x42, 0x6F, 0x81])
      = some ([0xAA, 0x55, 0x02, 0x01, 0x00, 0xE9, 0xE9], 0x42, 8) := by decide +kernel

/-! ### The CAN Message Translator (section 2.4) -/

/-- Rows T1, T4. -/
theorem test_to_wire :
    resultOf (exec (.canToWire (msg 1 0x123 [0xDE, 0xAD, 0xBE, 0xEF, 0x99, 0x99, 0x99, 0x99] 4 0)) busy)
      = some (.record [1, 0, 0, 0, 0x23, 1, 0, 0, 0xDE, 0xAD, 0xBE, 0xEF, 0, 0, 0, 0, 4, 0]) ∧
    resultOf (exec (.canToWire t4) busy)
      = some (.record [2, 0, 0, 0, 0, 8, 0, 0, 1, 2, 3, 4, 5, 6, 7, 8, 9, 1]) := by decide +kernel
/-- Row T10: data past `length` is copied; rows T6, T7. -/
theorem test_from_wire :
    resultOf (exec (.canFromWire [0, 0, 0, 0, 0x23, 1, 0, 0, 1, 2, 3, 4, 5, 6, 7, 8, 2, 0] 18) busy)
      = some (.parsed (some (msg 0 0x123 [1, 2, 3, 4, 5, 6, 7, 8] 2 0))) ∧
    fromWire (fun _ => 0) [4, 3, 2, 1, 0xDE, 0xBC, 0x1A, 0, 0x11, 0x22, 0x33, 0x44, 0x55, 0x66, 0x77,
      0x88, 8, 1] 18 = some t2 ∧
    fromWire (fun _ => 0) [4, 3, 2, 1, 0xDE, 0xBC, 0x1A, 0, 0x11, 0x22, 0x33, 0x44, 0x55, 0x66, 0x77,
      0x88, 8, 1] 17 = none := by decide +kernel
theorem test_id_encode :
    resultOf (exec (.canIdEncode 0x7FF) busy) = some (.hwId 0xFFE00000 false) ∧
    resultOf (exec (.canIdEncode 0x800) busy) = some (.hwId 0x00004000 true) ∧
    resultOf (exec (.canIdEncode 0xFFFFFFFF) busy) = some (.hwId 0xFFFFFFF8 true) := by
  decide +kernel
theorem test_id_decode :
    resultOf (exec (.canIdDecode 0x246FFFFF false) busy) = some (.rawId 0x123) ∧
    resultOf (exec (.canIdDecode 0x00000918 true) busy) = some (.rawId 0x123) ∧
    resultOf (exec (.canIdDecode 0xFFFFFFFF true) busy) = some (.rawId 0x1FFFFFFF) := by
  decide +kernel
theorem test_tx_frame :
    resultOf (exec (.canTxFrame (msg 9 0x123 [0xCA, 0xFE] 2 1)) busy)
      = some (.frame (hwf 0x24600000 false 2 [0xCA, 0xFE])) ∧
    refusalOf (exec (.canTxFrame t4) busy) = some .txOversized := by decide +kernel
theorem test_rx_frame :
    resultOf (exec (.canRxFrame (hwf 0x00D5E6F0 true 8
        [0x11, 0x22, 0x33, 0x44, 0x55, 0x66, 0x77, 0x88])) busy)
      = some (.received { t2 with timestamp := 0 }) := by decide +kernel

/-! ### The Receive Relay (section 2.5) -/

/-- Rows Y10 and Y11. -/
theorem test_push :
    relayOf (exec (.rlyPush (msg 0xDEADBEEF 0xA [] 0 0)) { busy with tsCtr := 3 })
      = some (.full, 3, 4) ∧
    relayOf (exec (.rlyPush (msg 0 0xA [] 0 0)) { busy with tsCtr := 0xFFFFFFFF })
      = some (.full, 0xFFFFFFFF, 0) := by decide +kernel
/-- Rows Y1 and Y3. -/
theorem test_take :
    resultOf (exec .rlyTake State.reset) = some (.taken none) ∧
    resultOf (exec .rlyTake fullRelay) = some (.taken (some (msg 4 0xA [] 0 0))) := by decide +kernel

/-! ### Steps of the programs of section 4 -/

/-- `busy` in a contract, with what is issued next. -/
def amid (k : BridgeTask) (inputs : List Input) : State := { busy with task := some k, inputs := inputs }

/-- M's task, and what was handed to the external capabilities. -/
structure Seen where
  task : Option BridgeTask
  control : List (List Byte)
  can : List (List Byte)
  frames : List HwFrame
deriving DecidableEq, Repr

def seenOf : Out → Option Seen
  | .next s => some ⟨s.task, s.usbControlOut, s.usbCanOut, s.canOut⟩
  | .fault r => nomatch r
  | .refused _ => none

/-- P4 step 1, `can_send` of it, and a short buffer. -/
theorem test_step_host_to_bus :
    seenOf (step (amid (.buildFrame (msg 0 0x123 [0xDE, 0xAD, 0xBE, 0xEF] 4 0)) []))
      = some ⟨some (.sendFrame (hwf 0x24600000 false 4 [0xDE, 0xAD, 0xBE, 0xEF])), [], [], []⟩ ∧
    seenOf (step (amid (.sendFrame (hwf 0x24600000 false 4 [0xDE])) []))
      = some ⟨none, [], [], [hwf 0x24600000 false 4 [0xDE]]⟩ ∧
    seenOf (step { busy with inputs := [.canIn [0, 0, 0, 0, 0x23, 1, 0, 0]] })
      = some ⟨none, [], [], []⟩ := by decide +kernel
/-- P1 step 1: the response is M's next task. -/
theorem test_step_control :
    (match step { State.reset with inputs :=
        [.controlIn (padded [0xAA, 0x55, 0x02, 0x01, 0x42, 0x6F, 0x81])] } with
      | .next t => (t.deviceStatus, t.packetCounter, t.task.map fun k =>
          match k with
          | .encodeResponse r => frameImage r
          | _ => [])
      | .fault r => nomatch r
      | .refused _ => (0, 0, none))
      = (0x42, 1, some [0xAA, 0x55, 0x02, 0x01, 0x00, 0xE9, 0xE9]) := by decide +kernel
/-- P3 step 4. -/
theorem test_step_bus_to_host :
    seenOf (step (amid (.serialise (msg 0 0x123 [0xCA, 0xFE] 2 0)) []))
      = some ⟨some (.writeCan [0, 0, 0, 0, 0x23, 1, 0, 0, 0xCA, 0xFE, 0, 0, 0, 0, 0, 0, 2, 0]), [], [], []⟩
      := by decide +kernel
/-- Rule R266: a frame is served between two operations of M, which is left where it was. -/
theorem test_step_producer_between :
    relayOf (step (amid (.writeCan [0]) [.frameArrival HwFrame.zero, .mainline])) = some (.full, 0, 1) ∧
    seenOf (step (amid (.writeCan [0]) [.frameArrival HwFrame.zero, .mainline]))
      = some ⟨some (.writeCan [0]), [], [], []⟩ := by decide +kernel
/-- Rule R286: a second request waits for M, which first finishes the first. -/
theorem test_step_requests_one_at_a_time :
    seenOf (step (amid (.writeControl [0]) [.controlIn []])) = some ⟨none, [[0]], [], []⟩ := by
  decide +kernel

/-! ### Witnesses: each meets the hypotheses of the statement it names -/

theorem witness_EncodePlacesEveryByte :
    let len n := (pkt (0xAA, 0x55) 6 n [] 0).dataLength.toNat
    (len 60 ≤ 60 ∧ ¬ 4 + len 60 < 64) ∧ (len 59 ≤ 60 ∧ 4 + len 59 < 64 ∧ ¬ 5 + len 59 < 64) ∧
    (len 58 ≤ 60 ∧ 5 + len 58 < 64) ∧ (len 0 ≤ 60 ∧ 6 + len 0 ≤ 63) := by decide
theorem witness_EncodeRefusesOversized :
    60 < (pkt (0xAA, 0x55) 6 61 [] 0).dataLength.toNat := by decide
theorem witness_DecodeReadsEveryField :
    (padded [0xAA, 0x55, 1, 61]).length = 64 ∧ (padded [0xAA, 0x55, 1, 60]).length = 64 ∧
    60 < ((padded [0xAA, 0x55, 1, 61]).getD 3 0).toNat ∧
    ((padded [0xAA, 0x55, 1, 60]).getD 3 0).toNat ≤ 60 := by decide +kernel
theorem witness_DecodeIgnoresTail :
    let a := padded [0xAA, 0x55, 2, 1, 0x42, 0x6F, 0x81]
    let b := padded [0xAA, 0x55, 2, 1, 0x42, 0x6F, 0x81, 0xEE]
    a.length = 64 ∧ b.length = 64 ∧ a[3]? = some 1 ∧ a ≠ b ∧
      ∀ off, off < 6 + (1 : Byte).toNat → a[off]? = b[off]? := by decide +kernel
theorem witness_PacketRoundTrip :
    (pkt (0xAA, 0x55) 6 58 [] 0).dataLength.toNat + 6 ≤ 64 ∧
    5 + (pkt (0xAA, 0x55) 6 59 [] 0).dataLength.toNat = 64 ∧
    4 + (pkt (0xAA, 0x55) 6 60 [] 0).dataLength.toNat = 64 ∧
    (padded [0xAA, 0x55, 6, 58]).length = 64 ∧ (padded [0xAA, 0x55, 6, 58])[3]? = some 58 := by
  decide +kernel
theorem witness_ValidateChecksInOrder :
    (pkt (0xAB, 0x55) 2 61 [] 0).header ≠ (0xAA#8, 0x55#8) ∧
    60 < (pkt (0xAA, 0x55) 2 61 [] 0).dataLength.toNat ∧
    crc16 (canon (pkt (0xAA, 0x55) 5 0 [] 0xD64C)) ≠ 0xD64C ∧
    crc16 (canon write42) = write42.checksum := by decide +kernel
theorem witness_OneCorruptedByteIsFound :
    validatePacket write42 = .ok ∧ 0 < write42.dataLength.toNat ∧ 0x43 ≠ write42.data[0] ∧
    0x03 ≠ write42.commandId := by decide +kernel
theorem witness_BuildResponseFillsEveryField : (run 0 60).length ≤ 60 ∧ ([] : List Byte).length ≤ 60 := by
  decide
theorem witness_BuildResponseRefusesOversized : 60 < (run 0 61).length := by decide
theorem witness_BuiltResponseIsValid : (run 0 58).length ≤ 60 ∧ 6 + (run 0 58).length ≤ 64 := by decide
theorem witness_WriteSetsStatus :
    ([0x42] : List Byte) = 0x42 :: [] ∧ ([] : List Byte) = [] := ⟨rfl, rfl⟩
theorem witness_EchoReturnsPayload :
    (0 < (run 0 1).length ∧ (run 0 1).length < 60) ∧ (run 0 59).length < 60 ∧
    (run 0 60).length = 60 := by decide
theorem witness_UnknownCommandEchoesId :
    (∀ k : Byte, k ∈ [0x01#8, 0x02#8, 0x03#8, 0x04#8, 0x05#8, 0x06#8] → 0x99 ≠ k) ∧
    (∀ k : Byte, k ∈ [0x01#8, 0x02#8, 0x03#8, 0x04#8, 0x05#8, 0x06#8] → 0xFF ≠ k) := by decide
theorem witness_ProcessAnswersEveryOtherFrame :
    ∀ payload, payload.length = 60 →
      decodeFrame busy.draw (padded [0xAA, 0x55, 0x01, 0x00, 0x12, 0x80]) ≠ .echoString payload := by
  have h : decodeFrame busy.draw (padded [0xAA, 0x55, 0x01, 0x00, 0x12, 0x80]) = .read [] := by
    decide +kernel
  intro payload _ h'
  exact Instr.noConfusion (h.symm.trans h')
theorem witness_DefectPrecedence :
    let at3 (bs : List Byte) := ((padded bs).getD 3 0).toNat
    60 < at3 [0, 0, 1, 61] ∧ at3 [0xAB, 0x55, 1, 60] ≤ 60 ∧
    crc16 ((padded [0xAA, 0x55, 6, 58]).take 62)
      ≠ unLe16 ((padded [0xAA, 0x55, 6, 58]).getD 62 0) ((padded [0xAA, 0x55, 6, 58]).getD 63 0) ∧
    crc16 ((padded [0xAA, 0x55, 5, 0, 0xD6, 0x4C]).take 4) = unLe16 0xD6 0x4C := by decide +kernel
theorem witness_CounterCountsDispatches :
    (∀ i ∈ [Instr.read [], .rlyTake], isProcess i = false ∧ isResetRow i = false) ∧
    refusalOf (runOps [.read [], .rlyTake] busy) = none ∧
    refusalOf (runOps [.reset [], .read [], .rlyTake] busy) = none := by decide +kernel
theorem witness_FromWireReadsEveryField : 17 < 18 ∧ 18 ≤ (run 0 18).length := by decide
theorem witness_CanRecordRoundTrip : (run 0 18).length = 18 := by decide
theorem witness_IdEncodeShiftsByValue : (0x7FF#32).toNat ≤ 0x7FF ∧ 0x7FF < (0x800#32).toNat := by decide
theorem witness_IdRoundTrip : (0x1FFFFFFF#32).toNat ≤ 0x1FFFFFFF := by decide
theorem witness_TxFrameBuildsFrame : t2.length.toNat = 8 ∧ t4.length.toNat = 9 := by decide
theorem witness_TakeEmptiesTheSlot :
    fullRelay.slotState = .full ∧ State.reset.slotState = .empty := ⟨rfl, rfl⟩
theorem witness_LossShowsInTheStamps : StampInv fullRelay ∧ fullRelay.slotState = .full :=
  ⟨fun _ => by decide, rfl⟩
theorem witness_StampCounterCountsPushes :
    ∃ t, runOps [.rlyPush t2, .rlyTake] busy = .next t := ⟨_, rfl⟩
theorem witness_DeliveredAtMostOnce :
    (∃ t u, runOps [.rlyPush t2, .read []] fullRelay = .next t ∧ exec .rlyTake t = .next u ∧
      u.results.head? = some (.taken (some { t2 with timestamp := 5 }))) ∧
    (∃ t u, runOps [.read []] fullRelay = .next t ∧ exec .rlyTake t = .next u ∧
      u.results.head? = some (.taken (some fullRelay.slotMsg))) := ⟨⟨_, _, rfl, rfl, rfl⟩, _, _, rfl, rfl, rfl⟩
theorem witness_PureOperationsLeaveState :
    isPure (.canToWire t2) = true ∧ ∃ t, exec (.canToWire t2) busy = .next t := ⟨rfl, _, rfl⟩
theorem witness_PathsAreIsolated :
    (isRelay (.rlyPush t2) = true ∧ ∃ t, exec (.rlyPush t2) busy = .next t) ∧
    (isRelay (.write [0x11]) = false ∧ ∃ t, exec (.write [0x11]) busy = .next t) :=
  ⟨⟨rfl, _, rfl⟩, rfl, _, rfl⟩
theorem witness_OnlyWriteAndResetSetStatus :
    (∃ t, exec (.write [0x11]) busy = .next t ∧ t.deviceStatus ≠ busy.deviceStatus) ∧
    (∃ t, exec (.reset []) busy = .next t ∧ t.deviceStatus ≠ busy.deviceStatus) :=
  ⟨⟨_, rfl, by decide⟩, _, rfl, by decide⟩
theorem witness_StepRunsTheDecodedInstruction :
    let issued x : State := { busy with inputs := [x] }
    let frame := padded [0xAA, 0x55, 0x01, 0x00, 0x12, 0x80]
    (State.reset.inputs = [] ∧ State.reset.task = none) ∧
    ((issued (.issue .M 0x8 (.rawId 1))).inputs = .issue .M 0x8 (.rawId 1) :: [] ∧
      (issued (.issue .M 0x8 (.rawId 1))).task = none ∧
      decode busy.draw (.op 0x8 (.rawId 1)) = .ok (.canIdEncode 1) ∧
      mayIssue .M (.canIdEncode 1) = true) ∧
    ((amid (.writeCan []) [.issue .P 0xC (.message t2)]).inputs = .issue .P 0xC (.message t2) :: [] ∧
      decode busy.draw (.op 0xC (.message t2)) = .ok (.rlyPush t2) ∧
      mayIssue .P (.rlyPush t2) = true) ∧
    ((issued (.controlIn frame)).inputs = .controlIn frame :: [] ∧
      decode busy.draw (.frame frame) = .ok (.read [])) ∧
    ((amid (.writeCan []) [.relayPoll]).task = some (.writeCan []) ∧
      ∀ x rest, (amid (.writeCan []) [.relayPoll]).inputs = x :: rest → needsMainline x = true) ∧
    (amid (.writeCan []) [.mainline]).inputs = .mainline :: [] ∧
    (issued .mainline).inputs = .mainline :: [] :=
  ⟨⟨rfl, rfl⟩, ⟨rfl, rfl, rfl, rfl⟩, ⟨rfl, rfl, rfl⟩, ⟨rfl, by decide +kernel⟩,
    ⟨rfl, fun x rest h => by cases h; rfl⟩, rfl, rfl⟩
theorem witness_ProducerIsServedAtOnce :
    (amid (.writeCan []) [.frameArrival HwFrame.zero, .mainline]).inputs
      = landing ([] ++ [HwFrame.zero]) [.mainline] := rfl
theorem witness_WrongRequestsAreRefused :
    let issued x : State := { busy with inputs := [x] }
    (issued (.issue .M 0xC (.message t2))).inputs = .issue .M 0xC (.message t2) :: [] ∧
    (issued (.issue .P 0xD .none)).inputs = .issue .P 0xD .none :: [] ∧
    (issued (.issue .P 0x5 (.buffer []))).inputs = .issue .P 0x5 (.buffer []) :: [] ∧
    (issued (.issue .P 0xE .none)).inputs = .issue .P 0xE .none :: [] ∧
    (issued (.issue .M 0xF .none)).inputs = .issue .M 0xF .none :: [] ∧ busy.task = none :=
  ⟨rfl, rfl, rfl, rfl, rfl, rfl⟩
theorem witness_ControlTransferGetsOneResponse :
    ({ busy with inputs := [.controlIn (run 0 64), .frameArrival HwFrame.zero, .mainline, .mainline] }
      : State).inputs
      = .controlIn (run 0 64) :: landing [HwFrame.zero] (.mainline :: landing [] (.mainline :: [])) ∧
    busy.task = none := ⟨rfl, rfl⟩
theorem witness_BusToHost :
    ({ busy with inputs := [.frameArrival HwFrame.zero, .relayPoll, .mainline,
        .frameArrival HwFrame.zero, .mainline] } : State).inputs
      = .frameArrival HwFrame.zero :: .relayPoll ::
          landing [] (.mainline :: landing [HwFrame.zero] (.mainline :: [])) ∧
    ({ busy with inputs := [.relayPoll] } : State).inputs = .relayPoll :: [] ∧
    busy.slotState = .empty ∧ busy.task = none := ⟨rfl, rfl, rfl, rfl⟩
theorem witness_HostToBus :
    ({ busy with inputs := [.canIn (toWire t2), .mainline, .mainline] } : State).inputs
      = .canIn (toWire t2) :: landing [] (.mainline :: landing [] (.mainline :: [])) ∧
    (run 0 17).length < 18 ∧ (toWire t2).length = 18 ∧
    fromWire busy.draw (toWire t2) 18 = some t2 ∧ t2.length.toNat = 8 ∧
    fromWire busy.draw (toWire t4) 18 = some t4 ∧ t4.length.toNat = 9 := by decide +kernel
theorem witness_CoincidenceIsASerialOrder :
    (({ fullRelay with inputs := [.coincidence t2] } : State).inputs = .coincidence t2 :: [] ∧
      fullRelay.slotState = .full ∧ fullRelay.task = none) ∧
    (({ busy with inputs := [.coincidence t2] } : State).inputs = .coincidence t2 :: [] ∧
      busy.slotState = .empty ∧ busy.task = none) := ⟨⟨rfl, rfl, rfl⟩, rfl, rfl, rfl⟩
theorem witness_HardResetSetsAllState :
    ({ fullRelay with inputs := [.reset] } : State).inputs = .reset :: [] := rfl
theorem witness_DecodeOfEncode :
    (Instr.read (run 0 58)).wellFormed = true ∧ (∀ e, Instr.read (run 0 58) ≠ .protocolErrorRsp e) ∧
    (requestFrame 0x01 (run 0 58))[3]? = some 58 ∧
    (Instr.echoString (run 0 60)).wellFormed = true :=
  ⟨by decide +kernel, fun e h => by simp at h, by decide +kernel, by decide +kernel⟩
theorem witness_StepKeepsStampInv :
    StampInv fullRelay ∧
    ∃ t, step { fullRelay with inputs := [.frameArrival HwFrame.zero] } = .next t ∧
      t.slotState = .full := ⟨fun _ => by decide, _, rfl, rfl⟩
theorem witness_StepKeepsOutputsOk :
    OutputsOk (amid (.writeCan (toWire t2)) []) ∧
    ∃ t, step (amid (.writeCan (toWire t2)) []) = .next t ∧ t.usbCanOut.length = 1 :=
  ⟨⟨fun k h => by cases h; exact (by decide +kernel : (toWire t2).length = 18), by simp [amid, busy, State.reset]⟩, _, rfl, rfl⟩
theorem witness_EmptySlotIsUnobservable :
    SameButHiddenSlot State.reset { State.reset with slotMsg := t2 } ∧
    State.reset ≠ { State.reset with slotMsg := t2 } :=
  ⟨⟨rfl, fun h => by simp [State.reset] at h⟩, by decide⟩

end Sys2Proof.Tests
end

/-! ### The packet codec's operations: what each meaning is, and what its pure function answers -/

namespace Sys2Proof.Machine

/-! #### Reads of a wire buffer -/

/-- A read depends on the byte at its own offset only. -/
theorem get_congr {wl off : Nat} {draw : Nat → Byte} {a b : List Byte} (h : a[off]? = b[off]?) :
    get wl draw a off = get wl draw b off := by
  simp only [get, byteAt, List.getD_eq_getElem?_getD, h]

theorem get_of_getElem?_eq_some {wl off : Nat} {draw : Nat → Byte} {wb : List Byte} {v : Byte}
    (hw : off < wl) (h : wb[off]? = some v) : get wl draw wb off = v := by
  obtain ⟨hb, hv⟩ := List.getElem?_eq_some_iff.mp h
  exact (get_of_lt draw hw hb).trans hv

/-- Decoding reads no offset past the checksum, whose place the length byte fixes (rule R146). -/
theorem decodePacket_congr {wl : Nat} {draw : Nat → Byte} {a b : List Byte}
    (h : ∀ off, off < 6 + (get wl draw a 3).toNat → get wl draw a off = get wl draw b off) :
    decodePacket wl draw a = decodePacket wl draw b := by
  have payload_eq :
      (List.range (get wl draw a 3).toNat).map (fun i => get wl draw a (4 + i))
        = (List.range (get wl draw a 3).toNat).map (fun i => get wl draw b (4 + i)) :=
    List.map_congr_left fun i hi => h (4 + i) (by have := List.mem_range.mp hi; omega)
  simp only [decodePacket, payload_eq, ← h 3 (by omega), h 0 (by omega), h 1 (by omega),
    h 2 (by omega), h (4 + (get wl draw a 3).toNat) (by omega),
    h (5 + (get wl draw a 3).toNat) (by omega)]

/-- Settles O7: the length byte is the same in both buffers, and decoding reads nothing past the
checksum it places. -/
theorem decodeIgnoresTail : Obligations.DecodeIgnoresTail := by
  intro wl draw a b n hwl _ _ hlen hagree
  refine decodePacket_congr fun off hoff => get_congr (hagree off ?_)
  rwa [get_of_getElem?_eq_some (by omega) hlen] at hoff

/-! #### PKT.VALIDATE, one answer per check (rules R151, R152) -/

theorem validatePacket_badHeader {p : Packet} (hh : p.header ≠ (Config.hdr0, Config.hdr1)) :
    validatePacket p = .err .badHeader := by
  have : p.header.1 ≠ Config.hdr0 ∨ p.header.2 ≠ Config.hdr1 := by
    rwa [Ne, Prod.ext_iff, not_and_or] at hh
  exact if_pos this

theorem validatePacket_badLength {p : Packet} (hh : p.header = (Config.hdr0, Config.hdr1))
    (hl : 60 < p.dataLength.toNat) : validatePacket p = .err .badLength := by
  simp [validatePacket, hh, hl]

theorem validatePacket_crcMismatch {p : Packet} (hh : p.header = (Config.hdr0, Config.hdr1))
    (hl : p.dataLength.toNat ≤ 60) (hc : crc16 (canon p) ≠ p.checksum) :
    validatePacket p = .err .crcMismatch := by
  simp [validatePacket, hh, hl.not_gt, hc]

theorem validatePacket_ok {p : Packet} (hh : p.header = (Config.hdr0, Config.hdr1))
    (hl : p.dataLength.toNat ≤ 60) (hc : crc16 (canon p) = p.checksum) :
    validatePacket p = .ok := by
  simp [validatePacket, hh, hl.not_gt, hc]

theorem exec_pktValidate (p : Packet) (s : State) :
    exec (.pktValidate p) s = .next (s.record (.validated (validatePacket p))) := rfl

/-- Settles O10: the answer is that of `validatePacket`, whose checks are the four clauses. -/
theorem validateChecksInOrder : Obligations.ValidateChecksInOrder := fun p s =>
  ⟨validatePacket p, exec_pktValidate p s, validatePacket_badHeader, validatePacket_badLength,
    validatePacket_crcMismatch, validatePacket_ok⟩

/-! #### PKT.BUILD_RESPONSE (rule R156) -/

/-- What is built is a response; the checksum clause rests on the canonical form leaving the padding
out. -/
theorem isResponse_buildResponse {cid : Byte} {d : List Byte} (h : d.length ≤ 60) :
    IsResponse (buildResponse cid d) cid d :=
  ⟨buildResponse_header cid d, buildResponse_commandId cid d, buildResponse_length h,
    dataRegion_getElem d, (buildResponse_checksum cid d).trans (congrArg crc16 (canon_buildResponse h))⟩

theorem exec_pktBuildResponse {d : List Byte} (h : d.length ≤ 60) (req : Option Packet) (cid : Byte)
    (s : State) :
    exec (.pktBuildResponse req cid d) s = .next (s.record (.packet (buildResponse cid d))) :=
  if_pos h

/-- Settles O12: the Packet built is `buildResponse cid d`, whatever the request operand. -/
theorem buildResponseFillsEveryField : Obligations.BuildResponseFillsEveryField :=
  fun req cid d s h =>
    ⟨buildResponse cid d, isResponse_buildResponse h, exec_pktBuildResponse h req cid s⟩

/-! #### PKT.ENCODE outside the Packet invariant (rule R145) -/

theorem exec_pktEncode_oversized {p : Packet} (h : 60 < p.dataLength.toNat) (s : State) :
    exec (.pktEncode p) s = .refused .encodeOversized :=
  if_neg h.not_ge

/-- Settles O5: the length guard of PKT.ENCODE fails. -/
theorem encodeRefusesOversized : Obligations.EncodeRefusesOversized :=
  fun _ s h => exec_pktEncode_oversized h s

end Sys2Proof.Machine

/-! ### The command processor's rows: what each meaning is, and the response it answers with -/

namespace Sys2Proof.Machine

/-- A row that answers with `d` counts itself and records a response carrying `d` (R170 steps 4 and
5), as long as `d` fits the data region. -/
theorem exists_isResponse_answer (cid : Byte) {d : List Byte} (h : d.length ≤ 60) (s : State) :
    ∃ r, IsResponse r cid d ∧ answer cid d s = .next (s.countPacket.record (.packet r)) :=
  ⟨buildResponse cid d, isResponse_buildResponse h, answer_eq_next.mpr rfl⟩

/-! #### WRITE (rules R176, R177) -/

theorem decodeCommand_cmdWrite (payload : List Byte) :
    decodeCommand Config.cmdWrite payload = .write payload := rfl

theorem exec_write_cons (v : Byte) (rest : List Byte) (s : State) :
    exec (.write (v :: rest)) s = answer Config.cmdWrite [Config.rcOk] (s.setStatus v) := rfl

theorem exec_write_nil (s : State) :
    exec (.write []) s = answer Config.cmdWrite [resultCode .missingPayload] s := rfl

/-- Settles O16: each of the two payload shapes has its one answer, the second without an update of
`deviceStatus`. -/
theorem writeSetsStatus : Obligations.WriteSetsStatus := by
  refine fun payload s => ⟨decodeCommand_cmdWrite payload, ?withPayload, ?withoutPayload⟩
  case withPayload =>
    rintro v rest rfl
    rw [exec_write_cons]
    exact exists_isResponse_answer _ (by decide) (s.setStatus v)
  case withoutPayload =>
    rintro rfl
    rw [exec_write_nil]
    exact exists_isResponse_answer _ (by decide) s

/-! #### STATUS (rules R178, R179) -/

theorem decodeCommand_cmdStatus (payload : List Byte) :
    decodeCommand Config.cmdStatus payload = .status payload := rfl

theorem exec_status (payload : List Byte) (s : State) :
    exec (.status payload) s
      = answer Config.cmdStatus ([Config.rcOk, s.deviceStatus] ++ le32 s.packetCounter) s := rfl

/-- Settles O17: the answer is built from the state the row starts in, so it shows the counter before
the increment, and `le32` gives its bytes least significant first. -/
theorem statusReportsCounter : Obligations.StatusReportsCounter := by
  refine fun payload s => ⟨decodeCommand_cmdStatus payload, ?_⟩
  rw [exec_status]
  exact exists_isResponse_answer _ (d := [Config.rcOk, s.deviceStatus] ++ le32 s.packetCounter)
    (by simp) s

end Sys2Proof.Machine

/-! ### The CAN Message Translator: where each byte of the record comes from, and the identifier shifts -/

namespace Sys2Proof.Machine

/-! #### CAN.TO_WIRE, one lemma per field of the record (rules R97, R210) -/

theorem getElem?_le32 (v : U32) {i : Nat} (h : i < 4) :
    (le32 v)[i]? = some (v.extractLsb' (8 * i) 8) := by
  interval_cases i <;> rfl

theorem getElem?_paddedData (m : CanMessage) {i : Nat} (h : i < 8) :
    (paddedData m)[i]? = some (if i < m.length.toNat then m.data[i] else 0) := by
  by_cases hi : i < m.length.toNat
  · simp [paddedData, List.getElem?_append, hi, h]
  · have : i - min m.length.toNat 8 < 8 - m.length.toNat := by omega
    simp [paddedData, List.getElem?_append, hi, this]

theorem getElem?_toWire_timestamp (m : CanMessage) {i : Nat} (h : i < 4) :
    (toWire m)[i]? = some (m.timestamp.extractLsb' (8 * i) 8) := by
  rw [← getElem?_le32 _ h]
  simp [toWire, List.getElem?_append, h]

theorem getElem?_toWire_id (m : CanMessage) {i : Nat} (h : i < 4) :
    (toWire m)[4 + i]? = some (m.id.extractLsb' (8 * i) 8) := by
  rw [← getElem?_le32 _ h]
  simp [toWire, List.getElem?_append, h]

theorem getElem?_toWire_data (m : CanMessage) {i : Nat} (h : i < 8) :
    (toWire m)[8 + i]? = some (if i < m.length.toNat then m.data[i] else 0) := by
  rw [toWire, List.getElem?_append_left (by simp; omega), List.getElem?_append_right (by simp),
    ← getElem?_paddedData _ h]
  simp

theorem getElem?_toWire_length (m : CanMessage) : (toWire m)[16]? = some m.length := by
  rw [toWire, List.getElem?_append_right (by simp)]
  simp

theorem getElem?_toWire_properties (m : CanMessage) : (toWire m)[17]? = some m.properties := by
  rw [toWire, List.getElem?_append_right (by simp)]
  simp

theorem exec_canToWire (m : CanMessage) (s : State) :
    exec (.canToWire m) s = .next (s.record (.record (toWire m))) := rfl

/-- Settles O28: the record is `toWire m`, and each clause is the lemma about its field. -/
theorem toWirePlacesEveryByte : Obligations.ToWirePlacesEveryByte := fun m s =>
  ⟨toWire m, exec_canToWire m s, length_toWire m, fun _ => getElem?_toWire_timestamp m,
    fun _ => getElem?_toWire_id m, fun _ => getElem?_toWire_data m, getElem?_toWire_length m,
    getElem?_toWire_properties m⟩

/-! #### CAN.ID_DECODE (rule R221) -/

theorem toNat_idDecode_extended (f : U32) : (idDecode f true).toNat = f.toNat / 2 ^ 3 := by
  simp [idDecode, Nat.shiftRight_eq_div_pow]

theorem toNat_idDecode_standard (f : U32) : (idDecode f false).toNat = f.toNat / 2 ^ 21 := by
  simp [idDecode, Nat.shiftRight_eq_div_pow]

theorem idDecode_extended_lt (f : U32) : (idDecode f true).toNat < 2 ^ 29 := by
  rw [toNat_idDecode_extended]
  omega

theorem idDecode_standard_lt (f : U32) : (idDecode f false).toNat < 2 ^ 11 := by
  rw [toNat_idDecode_standard]
  omega

theorem exec_canIdDecode (f : U32) (ide : Bool) (s : State) :
    exec (.canIdDecode f ide) s = .next (s.record (.rawId (idDecode f ide))) := rfl

/-- Settles O32: the flag picks the shift, and a 32-bit field shifted right by 3 or by 21 keeps 29 or
11 bits. -/
theorem idDecodeShiftsByFlag : Obligations.IdDecodeShiftsByFlag := fun f s =>
  ⟨⟨idDecode f true, exec_canIdDecode f true s, toNat_idDecode_extended f, idDecode_extended_lt f⟩,
    ⟨idDecode f false, exec_canIdDecode f false s, toNat_idDecode_standard f,
      idDecode_standard_lt f⟩⟩

end Sys2Proof.Machine

/-! ### The Receive Relay: RLY.TAKE on a full and on an empty slot, and who may issue it -/

namespace Sys2Proof.Machine

theorem encode_rlyTake : encode .rlyTake = .op 0xD .none := rfl

/-- Issue rights of RLY.TAKE (rule R36): M alone has them. -/
theorem mayIssue_rlyTake (a : Agent) : mayIssue a .rlyTake = (a == .M) := rfl

theorem exec_rlyTake (s : State) : exec .rlyTake s = execRlyTake s := rfl

theorem exec_rlyTake_full {s : State} (h : s.slotState = .full) :
    exec .rlyTake s = .next (s.emptySlot.record (.taken (some s.slotMsg))) :=
  (exec_rlyTake s).trans (execRlyTake_full h)

theorem exec_rlyTake_empty {s : State} (h : s.slotState = .empty) :
    exec .rlyTake s = .next (s.record (.taken none)) :=
  (exec_rlyTake s).trans (execRlyTake_empty h)

/-- Settles O38: the slot's state picks the answer. On a full slot `emptySlot` keeps the content and
`record` adds the message; on an empty slot only the result is added. -/
theorem takeEmptiesTheSlot : Obligations.TakeEmptiesTheSlot := fun _ =>
  ⟨encode_rlyTake, mayIssue_rlyTake .M, mayIssue_rlyTake .P, exec_rlyTake_full, exec_rlyTake_empty⟩

end Sys2Proof.Machine

/-! ### CRC16: the fold, the bit-serial form, and what one changed byte does to the register -/

namespace Sys2Proof.Machine

theorem exec_crc16 (bytes : List Byte) (s : State) :
    exec (.crc16 bytes) s = .next (s.record (.crc (crc16 bytes))) := rfl

/-- Settles O1: CRC16 is the fold of the eight-shift byte step, and its meaning only records it. -/
theorem crc16FoldsFromInitialValue : Obligations.Crc16FoldsFromInitialValue :=
  fun bytes s => ⟨exec_crc16 bytes s, rfl, fun _ _ => rfl, fun _ => rfl⟩

theorem crc16_nil : crc16 [] = Config.crcInit := rfl

theorem crc16_append (a b : List Byte) : crc16 (a ++ b) = b.foldl crcStep (crc16 a) :=
  List.foldl_append

/-- Settles O3: a fold over `a ++ b` is the fold over `b` from the fold over `a`. -/
theorem crcIncrementalLaw : Obligations.CrcIncrementalLaw := ⟨crc16_nil, crc16_append⟩

/-! #### The bit-serial form (rule R123) -/

theorem crcShift_of_clear {c : U16} (h : c.getLsbD 15 = false) : crcShift c = c <<< 1 := by
  rw [crcShift, h]; rfl

theorem crcShift_of_set {c : U16} (h : c.getLsbD 15 = true) :
    crcShift c = (c <<< 1) ^^^ Config.crcPoly := by
  rw [crcShift, h]; rfl

theorem crcSerialBit_eq (c : U16) (bit : Bool) :
    crcSerialBit c bit = (c <<< 1) ^^^ (if c.getLsbD 15 ^^ bit then Config.crcPoly else 0) := by
  unfold crcSerialBit
  split <;> simp

/-- The register with a word XORed in, shifted once: the word's top bit takes part as one serial input
bit, the rest of the word only moves up. -/
theorem crcShift_xor (c w : U16) :
    crcShift (c ^^^ w) = crcSerialBit c (w.getLsbD 15) ^^^ (w <<< 1) := by
  have top : (c ^^^ w).getLsbD 15 = (c.getLsbD 15 ^^ w.getLsbD 15) := BitVec.getLsbD_xor
  rw [crcSerialBit_eq, ← top, BitVec.xor_assoc, BitVec.xor_comm _ (w <<< 1), ← BitVec.xor_assoc,
    ← BitVec.shiftLeft_xor_distrib]
  cases h : (c ^^^ w).getLsbD 15
  · simp [crcShift_of_clear h]
  · simp [crcShift_of_set h]

/-- The byte at the high end: after `k` shifts its bit `7 - k` stands on top. -/
theorem getLsbD_top_of_byte (b : Byte) {k : Nat} (h : k ≤ 7) :
    (b.zeroExtend 16 <<< (8 + k)).getLsbD 15 = b.getLsbD (7 - k) := by
  simp only [BitVec.getLsbD_shiftLeft, BitVec.truncate_eq_setWidth, BitVec.getLsbD_setWidth]
  rw [show 15 - (8 + k) = 7 - k by omega]
  simp [show 8 + k ≤ 15 by omega, show 7 - k < 16 by omega]

/-- The register with what is left of the byte after `k` bits, shifted: bit `7 - k` is taken in. -/
theorem crcShift_xor_byte (c : U16) (b : Byte) {k : Nat} (h : k ≤ 7) :
    crcShift (c ^^^ (b.zeroExtend 16 <<< (8 + k)))
      = crcSerialBit c (b.getLsbD (7 - k)) ^^^ (b.zeroExtend 16 <<< (8 + (k + 1))) := by
  rw [crcShift_xor, getLsbD_top_of_byte b h, ← BitVec.shiftLeft_add, Nat.add_assoc]

/-- Eight shifts take in the byte's eight bits and leave nothing of it over. -/
theorem crcSerialByte_eq_crcStep (c : U16) (b : Byte) : crcSerialByte c b = crcStep c b := by
  have nothing_left : b.zeroExtend 16 <<< (8 + (7 + 1)) = 0#16 := by simp
  simp only [crcStep, Nat.repeat, crcSerialByte, List.foldl]
  rw [crcShift_xor_byte c b (k := 0), crcShift_xor_byte _ b (k := 1), crcShift_xor_byte _ b (k := 2),
    crcShift_xor_byte _ b (k := 3), crcShift_xor_byte _ b (k := 4), crcShift_xor_byte _ b (k := 5),
    crcShift_xor_byte _ b (k := 6), crcShift_xor_byte _ b (k := 7), nothing_left, BitVec.xor_zero] <;>
    omega

/-- Settles O2: the two byte steps are one function. -/
theorem crcSerialFormAgrees : Obligations.CrcSerialFormAgrees := by
  intro c bytes
  have : crcSerialByte = crcStep := funext₂ crcSerialByte_eq_crcStep
  rw [this]

/-! #### A changed byte changes the register (rule R154) -/

/-- The polynomial is odd and `c <<< 1` is even, so bit 0 shows which way the shift went. -/
theorem getLsbD_crcShift_zero (c : U16) : (crcShift c).getLsbD 0 = c.getLsbD 15 := by
  cases h : c.getLsbD 15
  · simp [crcShift_of_clear h]
  · simp [crcShift_of_set h, Config.crcPoly]

/-- The shift loses nothing: the bit that leaves at the top is the new bit 0. -/
theorem crcShift_injective : Function.Injective crcShift := by
  intro c d h
  have top : c.getLsbD 15 = d.getLsbD 15 := by
    rw [← getLsbD_crcShift_zero, h, getLsbD_crcShift_zero]
  have low : c <<< 1 = d <<< 1 := by
    cases hd : d.getLsbD 15 <;> rw [hd] at top
    · rwa [crcShift_of_clear top, crcShift_of_clear hd] at h
    · rw [crcShift_of_set top, crcShift_of_set hd] at h
      exact (BitVec.xor_left_inj _).mp h
  apply BitVec.eq_of_getLsbD_eq
  intro i hi
  rcases Nat.lt_or_ge i 15 with hlt | hge
  · have bit := congrArg (fun v : U16 => v.getLsbD (i + 1)) low
    simpa only [BitVec.getLsbD_shiftLeft, show i + 1 < 16 by omega, decide_true, Bool.true_and,
      show ¬ i + 1 < 1 by omega, decide_false, Bool.not_false, Nat.add_sub_cancel] using bit
  · rwa [show i = 15 by omega]

theorem repeat_crcShift_injective (n : Nat) : Function.Injective (Nat.repeat crcShift n) := by
  induction n with
  | zero => exact Function.injective_id
  | succ n ih => exact crcShift_injective.comp ih

/-- What enters at the high end of the register is the byte itself. -/
theorem byte_at_top_injective : Function.Injective fun b : Byte => b.zeroExtend 16 <<< 8 := by
  intro x y h
  have toNat_eq (b : Byte) : (b.zeroExtend 16 <<< 8).toNat = b.toNat * 2 ^ 8 := by
    simp [Nat.shiftLeft_eq]; omega
  have := congrArg BitVec.toNat h
  simp only [toNat_eq] at this
  exact BitVec.eq_of_toNat_eq (by omega)

theorem crcStep_register_injective (b : Byte) : Function.Injective (crcStep · b) := fun _ _ h =>
  (BitVec.xor_left_inj _).mp (repeat_crcShift_injective 8 h)

theorem crcStep_byte_injective (c : U16) : Function.Injective (crcStep c) := fun _ _ h =>
  byte_at_top_injective ((BitVec.xor_right_inj _).mp (repeat_crcShift_injective 8 h))

theorem foldl_crcStep_injective (bytes : List Byte) : Function.Injective (bytes.foldl crcStep) := by
  induction bytes with
  | nil => exact fun _ _ h => h
  | cons b bytes ih => exact ih.comp (crcStep_register_injective b)

/-- One byte set to another value changes the CRC, wherever it stands. -/
theorem crc16_set_ne {l : List Byte} {i : Nat} {x : Byte} (hi : i < l.length) (hx : x ≠ l[i]) :
    crc16 (l.set i x) ≠ crc16 l := by
  intro h
  have hl : l = l.take i ++ l[i] :: l.drop (i + 1) := by simp
  rw [List.set_eq_take_append_cons_drop, if_pos hi, crc16_append] at h
  conv at h => rhs; rw [hl, crc16_append]
  exact hx (crcStep_byte_injective _ (foldl_crcStep_injective _ h))

end Sys2Proof.Machine

/-! ### The packet codec: where the bytes of a frame stand, what decoding reads, the round trips -/

namespace Sys2Proof.Machine

/-! #### The frame image, byte by byte (rules R80 to R82) -/

theorem getElem?_payload {p : Packet} {i : Nat} (h : i < 60) (hi : i < p.dataLength.toNat) :
    p.payload[i]? = some p.data[i] := by
  simp [Packet.payload, hi, h]

theorem getElem?_canon_payload {p : Packet} {i : Nat} (h : i < 60) (hi : i < p.dataLength.toNat) :
    (canon p)[4 + i]? = some p.data[i] := by
  rw [← getElem?_payload h hi, canon, List.getElem?_append_right (by simp)]
  simp

theorem getElem?_frameImage_payload {p : Packet} {i : Nat} (h : i < 60)
    (hi : i < p.dataLength.toNat) : (frameImage p)[4 + i]? = some p.data[i] := by
  have hc := getElem?_canon_payload h hi
  rw [frameImage, List.getElem?_append_left (List.getElem?_eq_some_iff.mp hc).1, hc]

theorem getElem?_frameImage_low {p : Packet} (h : p.dataLength.toNat ≤ 60) :
    (frameImage p)[4 + p.dataLength.toNat]? = some (lo8 p.checksum) := by
  rw [frameImage, ← length_canon h, List.getElem?_append_right (Nat.le_refl _)]
  simp

theorem getElem?_frameImage_high {p : Packet} (h : p.dataLength.toNat ≤ 60) :
    (frameImage p)[5 + p.dataLength.toNat]? = some (hi8 p.checksum) := by
  have : 5 + p.dataLength.toNat = (canon p).length + 1 := by rw [length_canon h]; omega
  rw [frameImage, this, List.getElem?_append_right (by omega)]
  simp

/-! #### PKT.ENCODE (rules R141 to R144) -/

/-- Where the frame fits, the buffer holds it. -/
theorem getElem?_encodePacket_of_lt {wl off : Nat} {p : Packet} (draw : Nat → Byte) (hw : off < wl)
    (h : off < (frameImage p).length) : (encodePacket wl draw p)[off]? = (frameImage p)[off]? := by
  rw [encodePacket, List.getElem?_append_left (by simp; omega), List.getElem?_take, if_pos hw]

/-- What the frame leaves over is drawn. -/
theorem getElem?_encodePacket_of_le {wl off : Nat} {p : Packet} (draw : Nat → Byte) (hw : off < wl)
    (h : (frameImage p).length ≤ off) : (encodePacket wl draw p)[off]? = some (draw off) := by
  rw [encodePacket, List.getElem?_append_right (by simp; omega)]
  have : min wl (frameImage p).length = (frameImage p).length := by omega
  simp [this, show off - (frameImage p).length < wl - (frameImage p).length by omega,
    Nat.add_sub_cancel' h]

theorem exec_pktEncode {p : Packet} (h : p.dataLength.toNat ≤ 60) (s : State) :
    exec (.pktEncode p) s = .next (s.drawn.record (.wire (encodePacket 64 s.draw p))) :=
  if_pos h

/-- Settles O4: the buffer agrees with the frame image as far as that fits, and the rest is drawn. -/
theorem encodePlacesEveryByte : Obligations.EncodePlacesEveryByte := by
  intro p s hp
  have hlen := length_frameImage hp
  have placed (off : Nat) (hw : off < 64) (hoff : off < 6 + p.dataLength.toNat) :
      (encodePacket 64 s.draw p)[off]? = (frameImage p)[off]? :=
    getElem?_encodePacket_of_lt s.draw hw (by omega)
  refine ⟨encodePacket 64 s.draw p, exec_pktEncode hp s, length_encodePacket _ _ _,
    placed 0 (by omega) (by omega), placed 1 (by omega) (by omega), placed 2 (by omega) (by omega),
    placed 3 (by omega) (by omega), ?payload, ?low, ?high, ?rest⟩
  case payload =>
    intro i h hi
    rw [placed (4 + i) (by omega) (by omega), getElem?_frameImage_payload h hi]
  case low =>
    intro h
    rw [placed _ h (by omega), getElem?_frameImage_low hp]; rfl
  case high =>
    intro h
    rw [placed _ h (by omega), getElem?_frameImage_high hp]; rfl
  case rest =>
    intro off hoff hw
    exact getElem?_encodePacket_of_le s.draw hw (by omega)

/-! #### PKT.DECODE (rule R146) -/

/-- The Packet a buffer with a legal length byte is read as. -/
def readPacket (wl : Nat) (draw : Nat → Byte) (wb : List Byte) : Packet :=
  { header := (get wl draw wb 0, get wl draw wb 1)
    commandId := get wl draw wb 2
    dataLength := get wl draw wb 3
    data := dataRegion ((List.range (get wl draw wb 3).toNat).map fun i => get wl draw wb (4 + i))
    checksum := unLe16 (get wl draw wb (4 + (get wl draw wb 3).toNat))
      (get wl draw wb (5 + (get wl draw wb 3).toNat)) }

section
variable {wl : Nat} {draw : Nat → Byte} {wb : List Byte}

theorem decodePacket_malformed (h : 60 < (get wl draw wb 3).toNat) :
    decodePacket wl draw wb = .err .malformedLength := if_pos h

theorem decodePacket_ok (h : (get wl draw wb 3).toNat ≤ 60) :
    decodePacket wl draw wb = .ok (readPacket wl draw wb) := if_neg h.not_gt

theorem readPacket_data_of_lt {i : Nat} (h : i < 60) (hi : i < (get wl draw wb 3).toNat) :
    (readPacket wl draw wb).data[i] = get wl draw wb (4 + i) := by
  simp [readPacket, dataRegion_getElem _ _ h, hi]

theorem readPacket_data_of_le {i : Nat} (h : i < 60) (hi : (get wl draw wb 3).toNat ≤ i) :
    (readPacket wl draw wb).data[i] = 0 := by
  simp [readPacket, dataRegion_getElem _ _ h, hi]

theorem readPacket_payload (h : (get wl draw wb 3).toNat ≤ 60) :
    (readPacket wl draw wb).payload
      = (List.range (get wl draw wb 3).toNat).map fun i => get wl draw wb (4 + i) := by
  have := take_dataRegion (d := (List.range (get wl draw wb 3).toNat).map fun i =>
    get wl draw wb (4 + i)) (by simpa using h)
  simpa [Packet.payload, readPacket] using this

end

theorem toNat_unLe16 (b0 b1 : Byte) : (unLe16 b0 b1).toNat = b0.toNat + 256 * b1.toNat := by
  simp [unLe16]; omega

/-- A read of a buffer no longer than `WIRE_LEN`: the byte, or the draw of a missing one. -/
theorem get_eq_getD {wl : Nat} {wb : List Byte} (draw : Nat → Byte) (h : wb.length ≤ wl) (off : Nat) :
    get wl draw wb off = wb.getD off (draw off) := by
  rcases Nat.lt_or_ge off wl with hw | hw
  · simp [get, byteAt, hw]
  · simp [get, hw.not_gt, List.getElem?_eq_none (h.trans hw)]

theorem exec_pktDecode (wb : List Byte) (s : State) :
    exec (.pktDecode wb) s = .next (s.drawn.record (.decoded (decodePacket 64 s.draw wb))) := rfl

/-- Settles O6: every field is a read of its own offset, and a read of a 64-byte buffer is its byte
below 64 and a draw above. -/
theorem decodeReadsEveryField : Obligations.DecodeReadsEveryField := by
  intro wb s hwb
  have read (off : Nat) (h : off < 64) : get 64 s.draw wb off = wb[off] := get_of_lt s.draw h _
  have len := read 3 (by omega)
  refine ⟨fun h => ?long, fun h => ⟨readPacket 64 s.draw wb, ?fits, ?header, read 2 (by omega), len,
    ?payload, ?padding, ?checksum⟩⟩
  case long =>
    rw [exec_pktDecode, decodePacket_malformed (by rwa [len])]; rfl
  case fits =>
    rw [exec_pktDecode, decodePacket_ok (by rwa [len])]; rfl
  case header =>
    exact Prod.ext (read 0 (by omega)) (read 1 (by omega))
  case payload =>
    intro i hi hL
    rw [readPacket_data_of_lt hi (by rwa [len]), read (4 + i) (by omega)]
    exact List.getElem?_eq_getElem _
  case padding =>
    intro i hi hL
    exact readPacket_data_of_le hi (by rwa [len])
  case checksum =>
    simp only [readPacket, toNat_unLe16, len]
    rw [get_eq_getD s.draw hwb.le, get_eq_getD s.draw hwb.le]
    rfl

/-! #### Both round trips (rule R150) -/

/-- Reading an encoded frame gives the byte of the frame image that stands there. -/
theorem get_encodePacket {wl off : Nat} {p : Packet} {v : Byte} (d1 d2 : Nat → Byte) (hw : off < wl)
    (h : (frameImage p)[off]? = some v) : get wl d2 (encodePacket wl d1 p) off = v := by
  have hlt := (List.getElem?_eq_some_iff.mp h).1
  exact get_of_getElem?_eq_some hw ((getElem?_encodePacket_of_lt d1 hw hlt).trans h)

section
variable {wl : Nat} {d1 d2 : Nat → Byte} {p : Packet} (hwl : 64 ≤ wl) (hp : p.dataLength.toNat ≤ 60)
include hwl

theorem readPacket_encodePacket_header :
    (readPacket wl d2 (encodePacket wl d1 p)).header = p.header :=
  Prod.ext (get_encodePacket d1 d2 (by omega) rfl) (get_encodePacket d1 d2 (by omega) rfl)

theorem readPacket_encodePacket_commandId :
    (readPacket wl d2 (encodePacket wl d1 p)).commandId = p.commandId :=
  get_encodePacket d1 d2 (by omega) rfl

theorem readPacket_encodePacket_dataLength :
    (readPacket wl d2 (encodePacket wl d1 p)).dataLength = p.dataLength :=
  get_encodePacket d1 d2 (by omega) rfl

theorem get_encodePacket_length : get wl d2 (encodePacket wl d1 p) 3 = p.dataLength :=
  readPacket_encodePacket_dataLength hwl

theorem readPacket_encodePacket_data_of_lt {i : Nat} (h : i < 60) (hi : i < p.dataLength.toNat) :
    (readPacket wl d2 (encodePacket wl d1 p)).data[i] = p.data[i] := by
  rw [readPacket_data_of_lt h (by rwa [get_encodePacket_length hwl]),
    get_encodePacket d1 d2 (by omega) (getElem?_frameImage_payload h hi)]

theorem readPacket_encodePacket_data_of_le {i : Nat} (h : i < 60) (hi : p.dataLength.toNat ≤ i) :
    (readPacket wl d2 (encodePacket wl d1 p)).data[i] = 0#8 :=
  readPacket_data_of_le h (by rwa [get_encodePacket_length hwl])

include hp

theorem decodePacket_encodePacket :
    decodePacket wl d2 (encodePacket wl d1 p) = .ok (readPacket wl d2 (encodePacket wl d1 p)) :=
  decodePacket_ok (by rwa [get_encodePacket_length hwl])

theorem readPacket_encodePacket_payload :
    (readPacket wl d2 (encodePacket wl d1 p)).payload = p.payload := by
  have len : (readPacket wl d2 (encodePacket wl d1 p)).dataLength = p.dataLength :=
    readPacket_encodePacket_dataLength hwl
  apply List.ext_getElem?
  intro i
  rcases Nat.lt_or_ge i p.dataLength.toNat with hi | hi
  · rw [getElem?_payload (by omega) (by rwa [len]), getElem?_payload (by omega) hi,
      readPacket_encodePacket_data_of_lt hwl (by omega) hi]
  · rw [List.getElem?_eq_none (by rwa [length_payload (by rwa [len]), len]),
      List.getElem?_eq_none (by rwa [length_payload hp])]

/-- The checksum read back, whether its two bytes fit the buffer or not. -/
theorem readPacket_encodePacket_checksum :
    (readPacket wl d2 (encodePacket wl d1 p)).checksum
      = unLe16 (if 4 + p.dataLength.toNat < wl then lo8 p.checksum else d2 (4 + p.dataLength.toNat))
          (if 5 + p.dataLength.toNat < wl then hi8 p.checksum else d2 (5 + p.dataLength.toNat)) := by
  have low : get wl d2 (encodePacket wl d1 p) (4 + p.dataLength.toNat)
      = if 4 + p.dataLength.toNat < wl then lo8 p.checksum else d2 (4 + p.dataLength.toNat) := by
    split
    case isTrue h => exact get_encodePacket d1 d2 h (getElem?_frameImage_low hp)
    case isFalse h => exact get_of_le d2 _ (by omega)
  have high : get wl d2 (encodePacket wl d1 p) (5 + p.dataLength.toNat)
      = if 5 + p.dataLength.toNat < wl then hi8 p.checksum else d2 (5 + p.dataLength.toNat) := by
    split
    case isTrue h => exact get_encodePacket d1 d2 h (getElem?_frameImage_high hp)
    case isFalse h => exact get_of_le d2 _ (by omega)
  rw [← low, ← high, readPacket, get_encodePacket_length hwl]

/-- Where the whole frame fits, only the bytes past the payload may differ. -/
theorem equiv_readPacket_encodePacket (hfit : 6 + p.dataLength.toNat ≤ wl) :
    p.Equiv (readPacket wl d2 (encodePacket wl d1 p)) := by
  refine ⟨(readPacket_encodePacket_header hwl).symm, (readPacket_encodePacket_commandId hwl).symm,
    (readPacket_encodePacket_dataLength hwl).symm, ?_, (readPacket_encodePacket_payload hwl hp).symm⟩
  rw [readPacket_encodePacket_checksum hwl hp, if_pos (by omega), if_pos (by omega), unLe16_lo8_hi8]

/-- Where the whole frame fits, the Packet comes back exactly when its own padding is zero. -/
theorem readPacket_encodePacket_eq_iff (hfit : 6 + p.dataLength.toNat ≤ wl) :
    readPacket wl d2 (encodePacket wl d1 p) = p ↔
      ∀ i (h : i < 60), p.dataLength.toNat ≤ i → p.data[i] = 0#8 := by
  constructor
  · intro h i hi hL
    rw [← readPacket_encodePacket_data_of_le (d1 := d1) (d2 := d2) hwl hi hL, h]
  · intro hzero
    obtain ⟨header, commandId, dataLength, checksum, -⟩ :=
      equiv_readPacket_encodePacket (d1 := d1) (d2 := d2) hwl hp hfit
    have data : (readPacket wl d2 (encodePacket wl d1 p)).data = p.data := by
      ext i hi : 1
      rcases Nat.lt_or_ge i p.dataLength.toNat with hL | hL
      · exact readPacket_encodePacket_data_of_lt hwl hi hL
      · rw [readPacket_encodePacket_data_of_le hwl hi hL, hzero i hi hL]
    rw [Packet.mk.injEq]
    exact ⟨header.symm, commandId.symm, dataLength.symm, data, checksum.symm⟩

end

/-- The checksum covers what was read from offsets 0 to `3 + L`. -/
theorem canon_readPacket {wl : Nat} {draw : Nat → Byte} {wb : List Byte}
    (h : (get wl draw wb 3).toNat ≤ 60) :
    canon (readPacket wl draw wb)
      = (List.range (4 + (get wl draw wb 3).toNat)).map (get wl draw wb) := by
  rw [canon, readPacket_payload h, List.range_add, List.map_append, List.map_map]
  rfl

/-- The frame image of the Packet read from a buffer is that buffer, as far as the frame goes. -/
theorem frameImage_readPacket {wl : Nat} {draw : Nat → Byte} {wb : List Byte}
    (h : (get wl draw wb 3).toNat ≤ 60) :
    frameImage (readPacket wl draw wb)
      = (List.range (6 + (get wl draw wb 3).toNat)).map (get wl draw wb) := by
  rw [show 6 + (get wl draw wb 3).toNat = 4 + (get wl draw wb 3).toNat + 1 + 1 by omega,
    List.range_succ, List.range_succ, List.map_append, List.map_append, ← canon_readPacket h,
    frameImage, readPacket, lo8_unLe16, hi8_unLe16, List.append_assoc,
    show 4 + (get wl draw wb 3).toNat + 1 = 5 + (get wl draw wb 3).toNat by omega]
  rfl

/-- Settles O9: reading an encoded frame field by field gives the Packet's fields, and encoding what was
read writes the bytes read. -/
theorem packetRoundTrip : Obligations.PacketRoundTrip := by
  intro wl d1 d2 hwl
  refine ⟨fun p hp => ⟨readPacket wl d2 (encodePacket wl d1 p), decodePacket_encodePacket hwl hp,
    readPacket_encodePacket_header hwl, readPacket_encodePacket_commandId hwl,
    readPacket_encodePacket_dataLength hwl, readPacket_encodePacket_payload hwl hp,
    fun i h hL => readPacket_encodePacket_data_of_le hwl h hL,
    fun hfit => ⟨equiv_readPacket_encodePacket hwl hp hfit,
      readPacket_encodePacket_eq_iff hwl hp hfit⟩, ?highLost, ?bothLost⟩, ?decodeThenEncode⟩
  case highLost =>
    intro h
    rw [readPacket_encodePacket_checksum hwl hp, toNat_unLe16, if_pos (by omega), if_neg (by omega), h]
    rfl
  case bothLost =>
    intro h
    rw [readPacket_encodePacket_checksum hwl hp, toNat_unLe16, if_neg (by omega), if_neg (by omega), h,
      show 5 + p.dataLength.toNat = wl + 1 by omega]
  case decodeThenEncode =>
    intro wb n hlen hn hfit hn60
    have len : get wl d2 wb 3 = n := get_of_getElem?_eq_some (by omega) hn
    have legal : (get wl d2 wb 3).toNat ≤ 60 := by rwa [len]
    refine ⟨readPacket wl d2 wb, decodePacket_ok legal, fun off hoff => ?_⟩
    have image := frameImage_readPacket legal
    rw [len] at image
    rw [getElem?_encodePacket_of_lt d1 (by omega) (by simpa [image] using hoff), image,
      List.getElem?_map, List.getElem?_range hoff, List.getElem?_eq_getElem (by omega),
      Option.map_some, get_of_lt d2 (by omega)]

end Sys2Proof.Machine

/-! ### Validation and the decoder: corrupted bytes, what a frame asks for, the encoder's frames -/

namespace Sys2Proof.Machine

/-! #### PKT.VALIDATE and a corrupted byte (rules R151, R154) -/

theorem validatePacket_eq_ok {p : Packet} :
    validatePacket p = .ok ↔
      p.header = (Config.hdr0, Config.hdr1) ∧ p.dataLength.toNat ≤ 60 ∧ crc16 (canon p) = p.checksum := by
  refine ⟨fun h => ?_, fun ⟨hh, hl, hc⟩ => validatePacket_ok hh hl hc⟩
  have hh : p.header = (Config.hdr0, Config.hdr1) := by
    by_contra hh
    simp [validatePacket_badHeader hh] at h
  have hl : p.dataLength.toNat ≤ 60 := by
    by_contra hl
    simp [validatePacket_badLength hh (not_le.mp hl)] at h
  refine ⟨hh, hl, ?_⟩
  by_contra hc
  simp [validatePacket_crcMismatch hh hl hc] at h

/-- With header and length right, the checksum alone decides. -/
theorem validatePacket_of_header_length {p : Packet} (hh : p.header = (Config.hdr0, Config.hdr1))
    (hl : p.dataLength.toNat ≤ 60) :
    validatePacket p = .ok ∨ validatePacket p = .err .crcMismatch := by
  by_cases hc : crc16 (canon p) = p.checksum
  · exact .inl (validatePacket_ok hh hl hc)
  · exact .inr (validatePacket_crcMismatch hh hl hc)

theorem canon_set_data {p : Packet} {i : Nat} (h : i < 60) (b : Byte) :
    canon { p with data := p.data.set i b } = (canon p).set (4 + i) b := by
  have data : (p.data.set i b).toList = p.data.toList.set i b := Vector.toList_set h
  have payload : Packet.payload { p with data := p.data.set i b } = p.payload.set i b := by
    rw [Packet.payload, data, List.take_set, Packet.payload]
  rw [canon, payload, canon, List.set_append_right _ _ (by simp)]
  simp

theorem canon_set_commandId (p : Packet) (c : Byte) :
    canon { p with commandId := c } = (canon p).set 2 c := rfl

/-- Settles O11: the header and length checks still pass, and the CRC of the changed canonical form is
no longer the checksum. -/
theorem oneCorruptedByteIsFound : Obligations.OneCorruptedByteIsFound := by
  intro p hp
  obtain ⟨hh, hl, hc⟩ := validatePacket_eq_ok.mp hp
  have hlen := length_canon hl
  refine ⟨fun i h b hi hb => ?payload, fun c hne => ?commandId⟩
  case payload =>
    refine validatePacket_crcMismatch hh hl ?_
    obtain ⟨hlt, byte⟩ := List.getElem?_eq_some_iff.mp (getElem?_canon_payload h hi)
    rw [canon_set_data h, ← hc]
    exact crc16_set_ne hlt (byte ▸ hb)
  case commandId =>
    refine validatePacket_crcMismatch hh hl ?_
    rw [canon_set_commandId, ← hc]
    exact crc16_set_ne (by omega) hne

/-! #### PKT.BUILD_RESPONSE and its receiver (rules R158, R159) -/

theorem exec_pktBuildResponse_oversized {d : List Byte} (h : 60 < d.length) (req : Option Packet)
    (cid : Byte) (s : State) :
    exec (.pktBuildResponse req cid d) s = .refused .responseOversized :=
  if_neg h.not_ge

/-- Settles O13: the length guard of PKT.BUILD_RESPONSE fails. -/
theorem buildResponseRefusesOversized : Obligations.BuildResponseRefusesOversized :=
  fun req cid _ s h => exec_pktBuildResponse_oversized h req cid s

theorem validatePacket_buildResponse {cid : Byte} {d : List Byte} (h : d.length ≤ 60) :
    validatePacket (buildResponse cid d) = .ok :=
  validatePacket_ok (buildResponse_header cid d) ((buildResponse_length h).trans_le h)
    (buildResponse_checksum cid d).symm

/-- Validation reads nothing of the padding. -/
theorem validatePacket_congr {p q : Packet} (h : p.Equiv q) : validatePacket p = validatePacket q := by
  obtain ⟨header, commandId, dataLength, checksum, payload⟩ := h
  have hcanon : canon p = canon q := by
    rw [canon, header, commandId, dataLength, payload]; rfl
  rw [validatePacket, header, dataLength, hcanon, checksum]; rfl

/-- Settles O14: the built Packet is valid, and what a fitting buffer gives back differs from it in the
padding at most. -/
theorem builtResponseIsValid : Obligations.BuiltResponseIsValid := by
  intro cid d hd
  refine ⟨validatePacket_buildResponse hd, fun wl d1 d2 hwl hfit => ?_⟩
  have hlen : (buildResponse cid d).dataLength.toNat = d.length := buildResponse_length hd
  have same : (buildResponse cid d).Equiv (readPacket wl d2 (encodePacket wl d1 (buildResponse cid d))) :=
    equiv_readPacket_encodePacket hwl (hlen.trans_le hd) (by omega)
  refine ⟨_, decodePacket_encodePacket hwl (hlen.trans_le hd), ?_,
    readPacket_encodePacket_commandId hwl, ?_⟩
  · rw [← validatePacket_congr same, validatePacket_buildResponse hd]
  · rw [readPacket_encodePacket_payload hwl (hlen.trans_le hd), buildResponse_payload hd]

/-! #### A transfer of another length than 64 (decision D43, log 8) -/

/-- The 64 bytes a transfer is read as: its first 64, and a draw for each that is missing. -/
def fullTransfer (draw : Nat → Byte) (wb : List Byte) : List Byte :=
  wb.take 64 ++ (List.range (64 - wb.length)).map fun k => draw (wb.length + k)

theorem length_fullTransfer (draw : Nat → Byte) (wb : List Byte) :
    (fullTransfer draw wb).length = 64 := by
  simp [fullTransfer]; omega

theorem get_fullTransfer (draw : Nat → Byte) (wb : List Byte) (off : Nat) :
    get 64 draw (fullTransfer draw wb) off = get 64 draw wb off := by
  rcases Nat.lt_or_ge off 64 with h64 | h64
  · rcases Nat.lt_or_ge off wb.length with hlt | hge
    · simp [get, byteAt, fullTransfer, h64, hlt, List.getElem?_append]
    · have : min 64 wb.length = wb.length := by omega
      simp [get, byteAt, fullTransfer, h64, hge, List.getElem?_append, this, hge.not_gt,
        show off - wb.length < 64 - wb.length by omega]
  · rw [get_of_le _ _ h64, get_of_le _ _ h64]

theorem decodePacket_fullTransfer (draw : Nat → Byte) (wb : List Byte) :
    decodePacket 64 draw (fullTransfer draw wb) = decodePacket 64 draw wb :=
  decodePacket_congr fun off _ => get_fullTransfer draw wb off

/-- Settles O8: PKT.DECODE and CMD.PROCESS take their bytes from `decodePacket` alone. -/
theorem shortTransferBytesAreDraws : Obligations.ShortTransferBytesAreDraws := by
  intro wb s
  have same := (decodePacket_fullTransfer s.draw wb).symm
  refine ⟨length_fullTransfer s.draw wb, ?_, ?_⟩
  · rw [exec_pktDecode, same]; rfl
  · show execCmdProcess wb s = execCmdProcess (fullTransfer s.draw wb) s
    rw [execCmdProcess, execCmdProcess, same]

/-! #### What a frame asks for (rules R92, R94, R171 to R173) -/

section
variable {draw : Nat → Byte} {wb : List Byte}

theorem decodeFrame_malformed (h : 60 < (get 64 draw wb 3).toNat) :
    decodeFrame draw wb = .protocolErrorRsp .badLength := by
  rw [decodeFrame, Config.wireLen_eq, decodePacket_malformed h]

theorem decodeFrame_invalid {p : Packet} {e : ValidationError} (h : decodePacket 64 draw wb = .ok p)
    (hv : validatePacket p = .err e) : decodeFrame draw wb = .protocolErrorRsp e := by
  rw [decodeFrame, Config.wireLen_eq, h]
  simp only [hv]

theorem decodeFrame_valid {p : Packet} (h : decodePacket 64 draw wb = .ok p)
    (hv : validatePacket p = .ok) : decodeFrame draw wb = decodeCommand p.commandId p.payload := by
  rw [decodeFrame, Config.wireLen_eq, h]
  simp only [hv]

/-- All that a frame can ask for: the protocol-error response, or a command with a payload a Packet can
hold. -/
theorem decodeFrame_cases (draw : Nat → Byte) (wb : List Byte) :
    (∃ e, decodeFrame draw wb = .protocolErrorRsp e) ∨
      ∃ cid payload, payload.length ≤ 60 ∧ decodeFrame draw wb = decodeCommand cid payload := by
  rcases Nat.lt_or_ge 60 (get 64 draw wb 3).toNat with h | h
  · exact .inl ⟨_, decodeFrame_malformed h⟩
  · cases hv : validatePacket (readPacket 64 draw wb) with
    | err e => exact .inl ⟨e, decodeFrame_invalid (decodePacket_ok h) hv⟩
    | ok =>
      refine .inr ⟨_, _, ?_, decodeFrame_valid (decodePacket_ok h) hv⟩
      exact (length_payload h).trans_le h

end

/-- The buffer's own bytes, where all of them are there to be read. -/
theorem map_get_range {wl a n : Nat} {wb : List Byte} (draw : Nat → Byte) (hwb : wb.length = wl)
    (h : a + n ≤ wl) : (List.range n).map (fun i => get wl draw wb (a + i)) = (wb.drop a).take n := by
  apply List.ext_getElem
  · rw [List.length_map, List.length_range, List.length_take, List.length_drop]; omega
  · intro i h1 h2
    simp only [List.length_map, List.length_range] at h1
    simp [get_of_lt draw (show a + i < wl by omega) (show a + i < wb.length by omega)]

/-- Settles O25: the checks are those of decoding and validation in their order, on the Packet read from
the buffer; where the checksum fits, all of that is the buffer's own bytes. -/
theorem defectPrecedence : Obligations.DefectPrecedence := by
  intro draw wb hwb
  have read (off : Nat) (h : off < 64) : get 64 draw wb off = wb[off] := get_of_lt draw h _
  have len := read 3 (by omega)
  have hlen := congrArg BitVec.toNat len
  have header : (readPacket 64 draw wb).header = (wb[0], wb[1]) :=
    Prod.ext (read 0 (by omega)) (read 1 (by omega))
  have hcanon (h : wb[3].toNat ≤ 58) :
      canon (readPacket 64 draw wb) = wb.take (4 + wb[3].toNat) := by
    have := map_get_range (a := 0) draw hwb (show 0 + (4 + wb[3].toNat) ≤ 64 by omega)
    rw [canon_readPacket (show (get 64 draw wb 3).toNat ≤ 60 by omega), hlen]
    simpa using this
  have hchecksum (h : wb[3].toNat ≤ 58) : (readPacket 64 draw wb).checksum
      = unLe16 (wb.getD (4 + wb[3].toNat) 0) (wb.getD (5 + wb[3].toNat) 0) := by
    simp [readPacket, len, read (4 + wb[3].toNat) (by omega), read (5 + wb[3].toNat) (by omega),
      show 4 + wb[3].toNat < wb.length by omega, show 5 + wb[3].toNat < wb.length by omega]
  refine ⟨fun h => ?length, fun h hne => ?header, fun h h0 h1 hne => ?crc, fun h h0 h1 heq => ?valid⟩
  case length => exact decodeFrame_malformed (by rwa [len])
  case header =>
    refine decodeFrame_invalid (decodePacket_ok (by rwa [len])) (validatePacket_badHeader ?_)
    rw [header, Ne, Prod.mk.injEq, not_and_or]
    exact hne
  case crc =>
    refine decodeFrame_invalid (decodePacket_ok (by omega)) (validatePacket_crcMismatch ?_ ?_ ?_)
    · rw [header, h0, h1]
    · show (get 64 draw wb 3).toNat ≤ 60
      omega
    · rwa [hcanon h, hchecksum h]
  case valid =>
    have legal : (get 64 draw wb 3).toNat ≤ 60 := by omega
    rw [decodeFrame_valid (decodePacket_ok legal) (validatePacket_ok ?_ legal ?_),
      readPacket_payload legal, len, map_get_range draw hwb (by omega)]
    · exact congrArg (decodeCommand · _) (read 2 (by omega))
    · rw [header, h0, h1]
    · rwa [hcanon h, hchecksum h]

/-! #### The encoder's frames, decoded (rule R115) -/

theorem getElem?_requestFrame_length (cid : Byte) (payload : List Byte) :
    (requestFrame cid payload)[3]? = some (BitVec.ofNat 8 payload.length) := rfl

section
variable {cid : Byte} {payload : List Byte}

/-- A request frame in which the checksum fits decodes to the command. -/
theorem decodeFrame_requestFrame (draw : Nat → Byte) (h : payload.length ≤ 58) :
    decodeFrame draw (requestFrame cid payload) = decodeCommand cid payload := by
  obtain ⟨q, hq, hv, hcid, hpayload⟩ :=
    (builtResponseIsValid cid payload (by omega)).2 64 (fun _ => 0) draw (Nat.le_refl _) (by omega)
  exact (decodeFrame_valid hq hv).trans (by rw [hcid, hpayload])

/-- One in which it does not fit fails at most the checksum. -/
theorem decodeFrame_requestFrame_cut (draw : Nat → Byte) (h : payload.length ≤ 60) :
    decodeFrame draw (requestFrame cid payload) = decodeCommand cid payload ∨
      decodeFrame draw (requestFrame cid payload) = .protocolErrorRsp .crcMismatch := by
  have hlen : (buildResponse cid payload).dataLength.toNat ≤ 60 := (buildResponse_length h).trans_le h
  have hq : decodePacket 64 draw (requestFrame cid payload)
      = .ok (readPacket 64 draw (requestFrame cid payload)) :=
    decodePacket_encodePacket (Nat.le_refl 64) hlen
  have hheader := readPacket_encodePacket_header (d1 := fun _ => 0) (d2 := draw)
    (p := buildResponse cid payload) (Nat.le_refl 64)
  have hlength := readPacket_encodePacket_dataLength (d1 := fun _ => 0) (d2 := draw)
    (p := buildResponse cid payload) (Nat.le_refl 64)
  rcases validatePacket_of_header_length hheader (hlength ▸ hlen) with hv | hv
  · refine .inl ((decodeFrame_valid hq hv).trans (congrArg₂ decodeCommand ?_ ?_))
    · exact readPacket_encodePacket_commandId (Nat.le_refl 64)
    · exact (readPacket_encodePacket_payload (Nat.le_refl 64) hlen).trans (buildResponse_payload h)
  · exact .inr (decodeFrame_invalid hq hv)

end

theorem decodeCommand_errCmdId (payload : List Byte) :
    decodeCommand Config.errCmdId payload = .unknownCmd Config.errCmdId payload := rfl

/-- Settles O26: no command has the id 0xFF. -/
theorem errorImageIsUnknownRequest : Obligations.ErrorImageIsUnknownRequest := fun draw e =>
  ⟨requestFrame Config.errCmdId [resultCode (kindOf e)], rfl,
    (decodeFrame_requestFrame draw (by simp)).trans (decodeCommand_errCmdId _)⟩

/-- Every id but the six is the unknown command (rule R94). -/
theorem decodeCommand_unknown {cid : Byte} (h : isCommandId cid = false) (payload : List Byte) :
    decodeCommand cid payload = .unknownCmd cid payload := by
  simp only [isCommandId, Bool.or_eq_false_iff, beq_eq_false_iff_ne] at h
  obtain ⟨⟨⟨⟨⟨h1, h2⟩, h3⟩, h4⟩, h5⟩, h6⟩ := h
  simp [decodeCommand, h1, h2, h3, h4, h5, h6]

/-- What an encoded instruction decodes to: itself, and of a frame that loses checksum bytes the CRC
error at worst. -/
def DecodesBack (draw : Nat → Byte) (i : Instr) : Prop :=
  ((∀ wb, encode i = .frame wb → ∃ n, wb[3]? = some n ∧ n.toNat ≤ 58) →
    decode draw (encode i) = .ok i) ∧
  (decode draw (encode i) = .ok i ∨ decode draw (encode i) = .ok (.protocolErrorRsp .crcMismatch))

theorem decodesBack_of_eq {draw : Nat → Byte} {i : Instr} (h : decode draw (encode i) = .ok i) :
    DecodesBack draw i := ⟨fun _ => h, .inl h⟩

/-- A command row, whose frame carries its id and payload. -/
theorem decodesBack_of_requestFrame {cid : Byte} {payload : List Byte} {i : Instr} (draw : Nat → Byte)
    (hpayload : payloadFits payload = true) (henc : encode i = .frame (requestFrame cid payload))
    (hdec : decodeCommand cid payload = i) : DecodesBack draw i := by
  have h60 : payload.length ≤ 60 := of_decide_eq_true hpayload
  simp only [DecodesBack, henc, decode, Decoded.ok.injEq]
  constructor
  · intro hfits
    obtain ⟨n, hn, h58⟩ := hfits _ rfl
    rw [getElem?_requestFrame_length, Option.some.injEq] at hn
    have : payload.length ≤ 58 := by
      rw [← hn, BitVec.toNat_ofNat] at h58
      omega
    rw [decodeFrame_requestFrame draw this, hdec]
  · rw [← hdec]
    exact decodeFrame_requestFrame_cut draw h60

/-- Settles O55: an operation's request is decoded by its selector, a command row's frame by its id. -/
theorem decodeOfEncode : Obligations.DecodeOfEncode := by
  intro draw i hwf hnotError
  show DecodesBack draw i
  cases i with
  | read payload => exact decodesBack_of_requestFrame draw hwf rfl rfl
  | write payload => exact decodesBack_of_requestFrame draw hwf rfl rfl
  | status payload => exact decodesBack_of_requestFrame draw hwf rfl rfl
  | reset payload => exact decodesBack_of_requestFrame draw hwf rfl rfl
  | version payload => exact decodesBack_of_requestFrame draw hwf rfl rfl
  | echoString payload => exact decodesBack_of_requestFrame draw hwf rfl rfl
  | unknownCmd cid payload =>
    obtain ⟨hcid, hpayload⟩ := Bool.and_eq_true_iff.mp hwf
    exact decodesBack_of_requestFrame draw hpayload rfl
      (decodeCommand_unknown (by simpa using hcid) payload)
  | protocolErrorRsp e => exact absurd rfl (hnotError e)
  | _ => exact decodesBack_of_eq rfl

/-! #### Operation requests (rule R110) -/

/-- A decoded request is the encoding of what it decodes to: the decoder's table has sixteen selectors and
ten shapes of operands, and each pair computes to its own instruction or to a rejection. -/
theorem encode_of_decodeOp {sel : BitVec 4} {operands : Operands} {i : Instr}
    (h : decodeOp sel operands = .ok i) : encode i = .op sel operands := by
  obtain ⟨n, hn⟩ := sel
  interval_cases n <;> cases operands <;> cases h <;> rfl

/-- The encoding of an operation decodes to it: one equation per constructor, none for a frame's row. -/
theorem decodeOp_of_encode {sel : BitVec 4} {operands : Operands} {i : Instr}
    (h : encode i = .op sel operands) : decodeOp sel operands = .ok i := by
  cases i <;> cases h <;> rfl

/-- Settles O54: the selectors of the decoder are the encoder's, one by one. -/
theorem operationRequestsRoundTrip : Obligations.OperationRequestsRoundTrip :=
  fun _ _ _ => ⟨encode_of_decodeOp, decodeOp_of_encode⟩

/-- Settles O56: sample words, each decoded by computation. -/
theorem sampleWordsDecode : Obligations.SampleWordsDecode := by
  refine ⟨?_, ?_, ?_, ?_, ?_, rfl, rfl, rfl⟩ <;> decide +kernel

end Sys2Proof.Machine

/-! ### The command processor: every row's answer, and CMD.PROCESS as the row its frame asks for -/

namespace Sys2Proof.Machine

/-! #### The rows (rules R174, R180 to R186, R270) -/

theorem exec_read (payload : List Byte) (s : State) :
    exec (.read payload) s = answer Config.cmdRead [Config.rcOk, s.deviceStatus] s := rfl

/-- Settles O15: READ's answer, in which the payload has no part. -/
theorem readReportsStatus : Obligations.ReadReportsStatus := fun payload s => by
  rw [exec_read]
  exact exists_isResponse_answer _ (by simp) s

theorem decodeCommand_cmdReset (payload : List Byte) :
    decodeCommand Config.cmdReset payload = .reset payload := rfl

theorem exec_reset (payload : List Byte) (s : State) :
    exec (.reset payload) s = answer Config.cmdReset [Config.rcOk] s.clearDevice := rfl

/-- Settles O18: the answer counts from the cleared counter, so it ends at 1. -/
theorem resetClearsDeviceStateOnly : Obligations.ResetClearsDeviceStateOnly := fun payload s => by
  refine ⟨decodeCommand_cmdReset payload, ?_⟩
  rw [exec_reset]
  exact exists_isResponse_answer _ (by simp) s.clearDevice

theorem exec_version (payload : List Byte) (s : State) :
    exec (.version payload) s
      = answer Config.cmdVersion [Config.rcOk, Config.verMajor, Config.verMinor, Config.verPatch] s := rfl

/-- Settles O19: VERSION's answer, with the triple as it stands. -/
theorem versionReportsTriple : Obligations.VersionReportsTriple := fun payload s => by
  rw [exec_version]
  exact exists_isResponse_answer _ (by simp) s

theorem exec_echoString_nil (s : State) :
    exec (.echoString []) s = answer Config.cmdEchoString [resultCode .missingPayload] s := rfl

theorem exec_echoString_fits {payload : List Byte} (h0 : 0 < payload.length) (h : payload.length < 60)
    (s : State) :
    exec (.echoString payload) s = answer Config.cmdEchoString (Config.rcOk :: payload) s :=
  (if_neg h0.ne').trans (if_pos h)

theorem exec_echoString_oversized {payload : List Byte} (h : 60 ≤ payload.length) (s : State) :
    exec (.echoString payload) s = .refused .echoOversized :=
  (if_neg (by omega)).trans (if_neg h.not_gt)

/-- Settles O20: the three lengths ECHO_STRING tells apart. -/
theorem echoReturnsPayload : Obligations.EchoReturnsPayload := by
  refine fun payload s => ⟨fun h0 h => ?fits, ?missing, fun h => exec_echoString_oversized h.ge s⟩
  case fits =>
    rw [exec_echoString_fits h0 h]
    exact exists_isResponse_answer _ (by simp; omega) s
  case missing =>
    rintro rfl
    rw [exec_echoString_nil]
    exact exists_isResponse_answer _ (by simp) s

theorem exec_unknownCmd (cid : Byte) (payload : List Byte) (s : State) :
    exec (.unknownCmd cid payload) s = answer cid [resultCode .invalidCommand] s := rfl

/-- Settles O21: none of the decoder's six tests holds, and the row answers under the id it was given. -/
theorem unknownCommandEchoesId : Obligations.UnknownCommandEchoesId := by
  refine fun cid payload s => ⟨fun h => decodeCommand_unknown ?_ payload, ?_⟩
  · simpa [isCommandId, and_assoc] using h
  · rw [exec_unknownCmd]
    exact exists_isResponse_answer _ (by simp) s

theorem exec_protocolErrorRsp (e : ValidationError) (s : State) :
    exec (.protocolErrorRsp e) s
      = .next (s.record (.packet (buildResponse Config.errCmdId [resultCode (kindOf e)]))) := rfl

/-- Settles O22: the code is that of the error's kind, and recording the response is all that happens. -/
theorem protocolErrorChangesNothing : Obligations.ProtocolErrorChangesNothing := fun e s =>
  ⟨buildResponse Config.errCmdId [resultCode (kindOf e)],
    by cases e <;> exact isResponse_buildResponse (by simp), exec_protocolErrorRsp e s⟩

/-! #### CMD.PROCESS (rules R170 to R173) -/

/-- The outcome of a row that answers: one built response is recorded, and what else the row did is
confined to `DeviceState`. -/
def Answers (s : State) (o : Out) : Prop :=
  ∃ u cid d, d.length ≤ 60 ∧ o = .next (u.record (.packet (buildResponse cid d))) ∧
    SameRelay s u ∧ SameOutside s u ∧ u.results = s.results ∧ u.draws = s.draws

theorem sameRelay_refl (s : State) : SameRelay s s := ⟨rfl, rfl, rfl⟩

theorem sameDevice_refl (s : State) : SameDevice s s := ⟨rfl, rfl⟩

theorem sameOutside_refl (s : State) : SameOutside s s := ⟨rfl, rfl, rfl, rfl, rfl⟩

/-- Steps 4 and 5 of CMD.PROCESS, after an update `u` of `deviceStatus` or of the counter. -/
theorem answers_answer {s u : State} {d : List Byte} (cid : Byte) (hd : d.length ≤ 60)
    (hrelay : SameRelay s u) (houtside : SameOutside s u) (hresults : u.results = s.results)
    (hdraws : u.draws = s.draws) : Answers s (answer cid d u) :=
  ⟨u.countPacket, cid, d, hd, answer_eq_next.mpr rfl, hrelay, houtside, hresults, hdraws⟩

theorem answers_answer_self {d : List Byte} (cid : Byte) (hd : d.length ≤ 60) (s : State) :
    Answers s (answer cid d s) :=
  answers_answer cid hd (sameRelay_refl s) (sameOutside_refl s) rfl rfl

theorem answers_protocolErrorRsp (e : ValidationError) (s : State) :
    Answers s (exec (.protocolErrorRsp e) s) :=
  ⟨s, Config.errCmdId, [resultCode (kindOf e)], by simp, exec_protocolErrorRsp e s, sameRelay_refl s,
    sameOutside_refl s, rfl, rfl⟩

/-- A row that answers, or is the refused 60-byte echo (decision D17). -/
def AnswersOrRefusesEcho (i : Instr) (s : State) : Prop :=
  Answers s (exec i s) ∨
    (exec i s = .refused .echoOversized ∧ ∃ payload, payload.length = 60 ∧ i = .echoString payload)

theorem exec_write_answers (payload : List Byte) (s : State) : Answers s (exec (.write payload) s) := by
  cases payload with
  | nil => exact answers_answer_self _ (by simp) s
  | cons v rest =>
    rw [exec_write_cons]
    exact answers_answer _ (by simp) (sameRelay_refl s) (sameOutside_refl s) rfl rfl

theorem exec_echoString_answers {payload : List Byte} (h : payload.length ≤ 60) (s : State) :
    AnswersOrRefusesEcho (.echoString payload) s := by
  rcases Nat.eq_zero_or_pos payload.length with h0 | h0
  · rw [List.eq_nil_of_length_eq_zero h0]
    exact .inl (answers_answer_self _ (by simp) s)
  rcases h.lt_or_eq with hlt | heq
  · rw [AnswersOrRefusesEcho, exec_echoString_fits h0 hlt]
    exact .inl (answers_answer_self _ (by simp; omega) s)
  · exact .inr ⟨exec_echoString_oversized heq.ge s, payload, heq, rfl⟩

/-- Every command row, whichever its id selects. -/
theorem exec_decodeCommand {payload : List Byte} (cid : Byte) (h : payload.length ≤ 60) (s : State) :
    AnswersOrRefusesEcho (decodeCommand cid payload) s := by
  unfold decodeCommand
  split_ifs
  case pos => exact .inl (answers_answer_self _ (by simp) s)
  case pos => exact .inl (exec_write_answers payload s)
  case pos => exact .inl (answers_answer_self _ (by simp) s)
  case pos =>
    exact .inl (answers_answer _ (by simp) (sameRelay_refl s) (sameOutside_refl s) rfl rfl)
  case pos => exact .inl (answers_answer_self _ (by simp) s)
  case pos => exact exec_echoString_answers h s
  case neg => exact .inl (answers_answer_self _ (by simp) s)

/-- Every row a frame can ask for. -/
theorem exec_decodeFrame (draw : Nat → Byte) (wb : List Byte) (s : State) :
    AnswersOrRefusesEcho (decodeFrame draw wb) s := by
  rcases decodeFrame_cases draw wb with ⟨e, he⟩ | ⟨cid, payload, hp, hc⟩
  · rw [he]
    exact .inl (answers_protocolErrorRsp e s)
  · rw [hc]
    exact exec_decodeCommand cid hp s

/-- Step 3 of CMD.PROCESS and the decoder select by the same tests. -/
theorem dispatchCommand_eq (p : Packet) (s : State) :
    dispatchCommand p s = exec (decodeCommand p.commandId p.payload) s := by
  unfold dispatchCommand decodeCommand
  split_ifs <;> rfl

theorem exec_cmdProcess (wb : List Byte) (s : State) :
    exec (.cmdProcess wb) s = exec (decodeFrame s.draw wb) s.drawn := by
  show execCmdProcess wb s = _
  unfold execCmdProcess decodeFrame
  cases decodePacket Config.wireLen s.draw wb with
  | err e => cases e; rfl
  | ok p =>
    cases hv : validatePacket p with
    | err e => simp only [hv]; rfl
    | ok => simp only [hv]; exact dispatchCommand_eq p s.drawn

/-- Settles O23: CMD.PROCESS is the row of its frame, and every row completes but the 60-byte echo. -/
theorem processRunsTheRowOfItsFrame : Obligations.ProcessRunsTheRowOfItsFrame := by
  refine fun wb s => ⟨exec_cmdProcess wb s, ?_⟩
  rw [exec_cmdProcess]
  rcases exec_decodeFrame s.draw wb s.drawn with ⟨u, cid, d, -, ho, -⟩ | hecho
  · exact .inl ⟨_, ho⟩
  · exact .inr hecho

/-- Settles O24: the row answers with a built response, which is valid, and leaves the relay and the
outside as they were. -/
theorem processAnswersEveryOtherFrame : Obligations.ProcessAnswersEveryOtherFrame := by
  intro wb s hne
  rw [exec_cmdProcess]
  rcases exec_decodeFrame s.draw wb s.drawn with ⟨u, cid, d, hd, ho, hrelay, houtside, hresults, -⟩ | hecho
  · exact ⟨_, _, ho, by rw [State.record_results, hresults]; rfl, hrelay, houtside,
      validatePacket_buildResponse hd⟩
  · obtain ⟨-, payload, h60, hp⟩ := hecho
    exact absurd hp (hne payload h60)

end Sys2Proof.Machine

/-! ### The CAN Message Translator: reading a record, the record's round trips, identifiers and frames -/

namespace Sys2Proof.Machine

/-! #### CAN.FROM_WIRE (rules R213, R214) -/

/-- The message the first 18 bytes of an operand are read as. -/
def readRecord (draw : Nat → Byte) (bytes : List Byte) : CanMessage :=
  let g := byteAt draw bytes
  { timestamp := unLe32 (g 0) (g 1) (g 2) (g 3)
    id := unLe32 (g 4) (g 5) (g 6) (g 7)
    data := Vector.ofFn fun i => g (8 + i.val)
    length := g 16
    properties := g 17 }

theorem fromWire_some (draw : Nat → Byte) (bytes : List Byte) {len : Nat} (h : 18 ≤ len) :
    fromWire draw bytes len = some (readRecord draw bytes) := if_neg h.not_gt

theorem readRecord_data (draw : Nat → Byte) (bytes : List Byte) {i : Nat} (h : i < 8) :
    (readRecord draw bytes).data[i] = byteAt draw bytes (8 + i) := by
  simp [readRecord]

theorem toNat_unLe32 (b0 b1 b2 b3 : Byte) :
    (unLe32 b0 b1 b2 b3).toNat
      = b0.toNat + 2 ^ 8 * b1.toNat + 2 ^ 16 * b2.toNat + 2 ^ 24 * b3.toNat := by
  rw [unLe32, BitVec.toNat_ofNat]
  omega

theorem exec_canFromWire (bytes : List Byte) (len : Nat) (s : State) :
    exec (.canFromWire bytes len) s
      = .next (s.drawn.record (.parsed (fromWire s.draw bytes len))) := rfl

/-- Settles O29: the one test, and `readRecord` field by field. -/
theorem fromWireReadsEveryField : Obligations.FromWireReadsEveryField := by
  refine fun bytes len s => ⟨fun h => ?short, fun h => ⟨readRecord s.draw bytes, ?long,
    toNat_unLe32 _ _ _ _, toNat_unLe32 _ _ _ _, fun i hi => readRecord_data _ _ hi, rfl, rfl⟩⟩
  case short =>
    rw [exec_canFromWire, fromWire_none s.draw h]; rfl
  case long =>
    rw [exec_canFromWire, fromWire_some s.draw bytes h]; rfl

/-! #### Both round trips (rule R215) -/

theorem byteAt_of_getElem?_eq_some {draw : Nat → Byte} {bytes : List Byte} {off : Nat} {v : Byte}
    (h : bytes[off]? = some v) : byteAt draw bytes off = v := by
  simp [byteAt, h]

theorem byteAt_of_lt (draw : Nat → Byte) {bytes : List Byte} {off : Nat} (h : off < bytes.length) :
    byteAt draw bytes off = bytes[off] :=
  byteAt_of_getElem?_eq_some (List.getElem?_eq_getElem h)

/-- The message with zeros past its length. -/
def zeroPadded (m : CanMessage) : CanMessage :=
  { m with data := Vector.ofFn fun i => if i.val < m.length.toNat then m.data[i] else 0 }

theorem zeroPadded_data (m : CanMessage) {i : Nat} (h : i < 8) :
    (zeroPadded m).data[i] = if i < m.length.toNat then m.data[i] else 0 := by
  simp [zeroPadded]

theorem zeroPadded_eq_iff (m : CanMessage) :
    zeroPadded m = m ↔ ∀ i (h : i < 8), m.length.toNat ≤ i → m.data[i] = 0#8 := by
  constructor
  · intro heq i h hi
    have := zeroPadded_data m h
    rwa [heq, if_neg hi.not_gt] at this
  · intro hzero
    have data : (zeroPadded m).data = m.data := by
      ext i h : 1
      rw [zeroPadded_data m h]
      split
      case isTrue => rfl
      case isFalse hi => exact (hzero i h (not_lt.mp hi)).symm
    rw [CanMessage.mk.injEq]
    exact ⟨rfl, rfl, data, rfl, rfl⟩

theorem readRecord_toWire (draw : Nat → Byte) (m : CanMessage) :
    readRecord draw (toWire m) = zeroPadded m := by
  have timestamp (i : Nat) (h : i < 4) :
      byteAt draw (toWire m) i = m.timestamp.extractLsb' (8 * i) 8 :=
    byteAt_of_getElem?_eq_some (getElem?_toWire_timestamp m h)
  have id (i : Nat) (h : i < 4) : byteAt draw (toWire m) (4 + i) = m.id.extractLsb' (8 * i) 8 :=
    byteAt_of_getElem?_eq_some (getElem?_toWire_id m h)
  rw [readRecord, zeroPadded, CanMessage.mk.injEq]
  refine ⟨?stamp, ?identifier, ?region, byteAt_of_getElem?_eq_some (getElem?_toWire_length m),
    byteAt_of_getElem?_eq_some (getElem?_toWire_properties m)⟩
  case stamp =>
    rw [timestamp 0 (by omega), timestamp 1 (by omega), timestamp 2 (by omega), timestamp 3 (by omega)]
    exact unLe32_bytes _
  case identifier =>
    rw [id 0 (by omega), id 1 (by omega), id 2 (by omega), id 3 (by omega)]
    exact unLe32_bytes _
  case region =>
    congr 1
    funext i
    exact byteAt_of_getElem?_eq_some (getElem?_toWire_data m i.isLt)

/-- Four bytes read into a word and taken out again. -/
theorem extractLsb'_unLe32 (g : Nat → Byte) (a : Nat) {i : Nat} (h : i < 4) :
    (unLe32 (g a) (g (a + 1)) (g (a + 2)) (g (a + 3))).extractLsb' (8 * i) 8 = g (a + i) := by
  have := getElem?_le32 (unLe32 (g a) (g (a + 1)) (g (a + 2)) (g (a + 3))) h
  rw [le32_unLe32] at this
  interval_cases i <;> exact (Option.some.inj this).symm

/-- Writing the message read from a record: the record, but for zeros past its length byte. -/
theorem getElem?_toWire_readRecord (draw : Nat → Byte) {b : List Byte} (hb : b.length = 18) {off : Nat}
    (h : off < 18) :
    (toWire (readRecord draw b))[off]?
      = some (if 8 + b[16].toNat ≤ off ∧ off < 16 then 0#8 else b[off]) := by
  have read (i : Nat) (hi : i < 18) : byteAt draw b i = b[i] := byteAt_of_lt draw (by omega)
  have length : (readRecord draw b).length = b[16] := read 16 (by omega)
  rcases Nat.lt_or_ge off 4 with h4 | h4
  · rw [getElem?_toWire_timestamp _ h4, if_neg (by omega)]
    exact congrArg some
      ((extractLsb'_unLe32 (byteAt draw b) 0 h4).trans (by rw [Nat.zero_add, read off h]))
  rcases Nat.lt_or_ge off 8 with h8 | h8
  · obtain ⟨i, rfl⟩ := Nat.exists_eq_add_of_le h4
    rw [getElem?_toWire_id _ (by omega), if_neg (by omega)]
    exact congrArg some ((extractLsb'_unLe32 (byteAt draw b) 4 (by omega)).trans (read _ h))
  rcases Nat.lt_or_ge off 16 with h16 | h16
  · obtain ⟨i, rfl⟩ := Nat.exists_eq_add_of_le h8
    rw [getElem?_toWire_data _ (by omega), readRecord_data _ _ (by omega), length, read _ h]
    by_cases hi : i < b[16].toNat
    · rw [if_pos hi, if_neg (by omega)]
    · rw [if_neg hi, if_pos (by omega)]; rfl
  rw [if_neg (by omega)]
  rcases (show off = 16 ∨ off = 17 by omega) with rfl | rfl
  · rw [getElem?_toWire_length, length]
  · rw [getElem?_toWire_properties]
    exact congrArg some (read 17 h)

theorem toWire_readRecord_eq_iff (draw : Nat → Byte) {b : List Byte} (hb : b.length = 18) :
    toWire (readRecord draw b) = b
      ↔ ∀ off (h : off < 16), 8 + b[16].toNat ≤ off → b[off] = 0#8 := by
  constructor
  · intro heq off h hpast
    have := getElem?_toWire_readRecord draw hb (show off < 18 by omega)
    rw [heq, if_pos ⟨hpast, h⟩, List.getElem?_eq_getElem (by omega)] at this
    exact Option.some.inj this
  · intro hzero
    apply List.ext_getElem?
    intro off
    rcases Nat.lt_or_ge off 18 with h | h
    · rw [getElem?_toWire_readRecord draw hb h, List.getElem?_eq_getElem (by omega)]
      split
      case isTrue hpast => rw [hzero off hpast.2 hpast.1]
      case isFalse => rfl
    · rw [List.getElem?_eq_none (by simpa using h), List.getElem?_eq_none (by omega)]

/-- Settles O30: reading a written record zeroes the message's padding, writing a read message zeroes
the record's. -/
theorem canRecordRoundTrip : Obligations.CanRecordRoundTrip := by
  refine fun draw => ⟨fun m => ⟨zeroPadded m, ?_, rfl, rfl, rfl, rfl, fun i h => zeroPadded_data m h,
    zeroPadded_eq_iff m⟩, fun b hb => ⟨readRecord draw b, fromWire_some draw b (Nat.le_refl _),
    fun off h => getElem?_toWire_readRecord draw hb h, toWire_readRecord_eq_iff draw hb⟩⟩
  rw [fromWire_some draw _ (Nat.le_refl _), readRecord_toWire]

/-! #### Identifiers (rules R217 to R223) -/

theorem idEncode_standard {id : U32} (h : id.toNat ≤ 0x7FF) : idEncode id = (id <<< 21, false) :=
  if_pos h

theorem idEncode_extended {id : U32} (h : 0x7FF < id.toNat) : idEncode id = (id <<< 3, true) :=
  if_neg h.not_ge

theorem exec_canIdEncode (id : U32) (s : State) :
    exec (.canIdEncode id) s = .next (s.record (.hwId (idEncode id).1 (idEncode id).2)) := rfl

/-- Settles O31: the shift by 21 loses nothing of a standard identifier, the one by 3 is mod 2^32. -/
theorem idEncodeShiftsByValue : Obligations.IdEncodeShiftsByValue := by
  refine fun id s => ⟨_, _, exec_canIdEncode id s, fun h => ?standard, fun h => ?extended⟩
  case standard =>
    rw [idEncode_standard h]
    refine ⟨?_, rfl⟩
    rw [BitVec.toNat_shiftLeft, Nat.shiftLeft_eq]
    omega
  case extended =>
    rw [idEncode_extended h]
    exact ⟨by rw [BitVec.toNat_shiftLeft, Nat.shiftLeft_eq], rfl⟩

theorem idEncode_flag (id : U32) : (idEncode id).2 = false ↔ id.toNat ≤ 0x7FF := by
  rcases Nat.lt_or_ge 0x7FF id.toNat with h | h
  · simp [idEncode_extended h, h]
  · simp [idEncode_standard h, h]

/-- Decoding an encoded identifier keeps its low 29 bits. -/
theorem toNat_idDecode_idEncode (id : U32) :
    (idDecode (idEncode id).1 (idEncode id).2).toNat = id.toNat % 2 ^ 29 := by
  rcases Nat.lt_or_ge 0x7FF id.toNat with h | h
  · rw [idEncode_extended h, toNat_idDecode_extended, BitVec.toNat_shiftLeft, Nat.shiftLeft_eq]
    omega
  · rw [idEncode_standard h, toNat_idDecode_standard, BitVec.toNat_shiftLeft, Nat.shiftLeft_eq]
    omega

/-- Settles O33: all three clauses follow from the value mod 2^29. -/
theorem idRoundTrip : Obligations.IdRoundTrip := by
  refine fun id => ⟨BitVec.eq_of_toNat_eq ?masked, fun h => BitVec.eq_of_toNat_eq ?whole,
    idEncode_flag id⟩
  case masked =>
    rw [toNat_idDecode_idEncode, BitVec.toNat_and]
    exact (Nat.and_two_pow_sub_one_eq_mod id.toNat 29).symm
  case whole =>
    rw [toNat_idDecode_idEncode]
    omega

/-- Clearing the low `k` bits of a field is shifting it down and up again. -/
theorem shiftRight_shiftLeft_eq_and (f : U32) (k : Nat) :
    f >>> k <<< k = f &&& (BitVec.allOnes 32 <<< k) := by
  apply BitVec.eq_of_getLsbD_eq
  intro i hi
  simp only [BitVec.getLsbD_shiftLeft, BitVec.getLsbD_ushiftRight, BitVec.getLsbD_and,
    BitVec.getLsbD_allOnes]
  by_cases h : i < k
  · simp [h]
  · simp [h, hi, show i - k < 32 by omega, Nat.add_sub_cancel' (not_lt.mp h)]

/-- Settles O34: a standard field decodes below 0x800 and is shifted back by 21; an extended one is
shifted back by 3 exactly when its identifier is above 0x7FF. -/
theorem idDecodeThenEncode : Obligations.IdDecodeThenEncode := by
  intro f e
  cases e with
  | false =>
    have := idDecode_standard_lt f
    rw [idEncode_standard (by omega)]
    exact iff_of_true (Prod.ext (shiftRight_shiftLeft_eq_and f 21) rfl) (.inl rfl)
  | true =>
    rcases Nat.lt_or_ge 0x7FF (idDecode f true).toNat with h | h
    · rw [idEncode_extended h]
      exact iff_of_true (Prod.ext (shiftRight_shiftLeft_eq_and f 3) rfl) (.inr h)
    · rw [idEncode_standard h]
      exact iff_of_false (fun heq => by simpa using congrArg Prod.snd heq) (by simpa using h)

/-! #### CAN.TX_FRAME and CAN.RX_FRAME (rules R225 to R229) -/

theorem exec_canTxFrame {m : CanMessage} (h : m.length.toNat ≤ 8) (s : State) :
    exec (.canTxFrame m) s = .next (s.record (.frame (txFrame m))) := if_pos h

theorem exec_canTxFrame_oversized {m : CanMessage} (h : 8 < m.length.toNat) (s : State) :
    exec (.canTxFrame m) s = .refused .txOversized := if_neg h.not_ge

/-- Settles O35: timestamp and properties are no part of `txFrame` and of its guard. -/
theorem txFrameBuildsFrame : Obligations.TxFrameBuildsFrame := fun m s =>
  ⟨fun h => ⟨txFrame m, exec_canTxFrame h s, rfl, rfl, rfl, fun _ _ => rfl⟩,
    fun h => exec_canTxFrame_oversized h s⟩

theorem exec_canRxFrame (f : HwFrame) (s : State) :
    exec (.canRxFrame f) s = .next (s.record (.received (rxFrame f))) := rfl

theorem rxFrame_properties (f : HwFrame) :
    (rxFrame f).properties = if f.ide then 1#8 else 0#8 := rfl

/-- Settles O36: the fields of `rxFrame`; the flag is the whole of the properties byte. -/
theorem rxFrameBuildsMessage : Obligations.RxFrameBuildsMessage := by
  refine fun f s => ⟨rxFrame f, exec_canRxFrame f s, rfl, rfl, rfl, rfl, ?_⟩
  rw [rxFrame_properties]
  cases f.ide <;> decide

end Sys2Proof.Machine

/-! ### What an operation does to the state, said once for all of them, and what follows over sequences -/

namespace Sys2Proof.Machine

/-! #### The effect of an operation, its result apart -/

/-- What an operation that completes does to the state before it records its result, CMD.PROCESS apart. -/
def ownEffect (i : Instr) (s : State) : State :=
  match i with
  | .pktEncode _ | .pktDecode _ | .canFromWire _ _ => s.drawn
  | .rlyPush m => (s.fillSlot { m with timestamp := s.tsCtr }).countFrame
  | .rlyTake => s.emptySlot
  | .write (v :: _) => (s.setStatus v).countPacket
  | .write [] | .read _ | .status _ | .version _ | .echoString _ | .unknownCmd _ _ => s.countPacket
  | .reset _ => s.clearDevice.countPacket
  | _ => s

/-- What an operation that completes does to the state before it records its result: CMD.PROCESS uses a
draw and does what the row of its frame does. -/
def effect (i : Instr) (s : State) : State :=
  match i with
  | .cmdProcess wb => ownEffect (decodeFrame s.draw wb) s.drawn
  | i => ownEffect i s

theorem effect_eq_ownEffect {i : Instr} (h : isProcess i = false) (s : State) :
    effect i s = ownEffect i s := by
  cases i with
  | cmdProcess wb => cases h
  | _ => rfl

theorem emptySlot_of_empty {s : State} (h : s.slotState = .empty) : s.emptySlot = s := by
  rw [State.emptySlot, ← h]

/-- A decoded frame is a row of the command table. -/
theorem decodeFrame_isRow (draw : Nat → Byte) (wb : List Byte) :
    isProcess (decodeFrame draw wb) = false ∧ isRelay (decodeFrame draw wb) = false := by
  rcases decodeFrame_cases draw wb with ⟨e, he⟩ | ⟨cid, payload, -, hc⟩
  · rw [he]; exact ⟨rfl, rfl⟩
  · rw [hc]
    unfold decodeCommand
    split_ifs <;> exact ⟨rfl, rfl⟩

/-- What an operation did, by its result: `r` was recorded after the effect, and delivers a message only
if it is RLY.TAKE's on a full slot. -/
def Did (i : Instr) (s after t : State) : Prop :=
  ∃ r, t = after.record r ∧ (delivers r = true → i = .rlyTake ∧ s.slotState = .full)

theorem did_of_answer {i : Instr} {s u t : State} {cid : Byte} {d : List Byte}
    (h : answer cid d u = .next t) : Did i s u.countPacket t :=
  ⟨_, answer_eq_next.mp h, fun hd => by cases hd⟩

theorem did_ownEffect {i : Instr} {s t : State} (hi : isProcess i = false)
    (h : exec i s = .next t) : Did i s (ownEffect i s) t := by
  cases i with
  | cmdProcess wb => cases hi
  | pktEncode p =>
    rcases Nat.lt_or_ge 60 p.dataLength.toNat with hp | hp
    · rw [exec_pktEncode_oversized hp] at h; cases h
    · rw [exec_pktEncode hp] at h; cases h; exact ⟨_, rfl, fun hd => by cases hd⟩
  | pktBuildResponse req cid d =>
    rcases Nat.lt_or_ge 60 d.length with hd | hd
    · rw [exec_pktBuildResponse_oversized hd] at h; cases h
    · rw [exec_pktBuildResponse hd] at h; cases h; exact ⟨_, rfl, fun hd => by cases hd⟩
  | canTxFrame m =>
    rcases Nat.lt_or_ge 8 m.length.toNat with hm | hm
    · rw [exec_canTxFrame_oversized hm] at h; cases h
    · rw [exec_canTxFrame hm] at h; cases h; exact ⟨_, rfl, fun hd => by cases hd⟩
  | rlyTake =>
    cases hs : s.slotState with
    | full => rw [exec_rlyTake_full hs] at h; cases h; exact ⟨_, rfl, fun _ => ⟨rfl, hs⟩⟩
    | empty =>
      rw [exec_rlyTake_empty hs] at h; cases h
      exact ⟨_, congrArg _ (emptySlot_of_empty hs).symm, fun hd => by cases hd⟩
  | write payload =>
    cases payload with
    | nil => exact did_of_answer h
    | cons v rest => exact did_of_answer h
  | echoString payload =>
    rcases Nat.eq_zero_or_pos payload.length with h0 | h0
    · rw [List.eq_nil_of_length_eq_zero h0] at h ⊢; exact did_of_answer h
    rcases Nat.lt_or_ge payload.length 60 with hlt | hge
    · rw [exec_echoString_fits h0 hlt] at h; exact did_of_answer h
    · rw [exec_echoString_oversized hge] at h; cases h
  | read payload => exact did_of_answer h
  | status payload => exact did_of_answer h
  | reset payload => exact did_of_answer h
  | version payload => exact did_of_answer h
  | unknownCmd cid payload => exact did_of_answer h
  | _ => cases h; exact ⟨_, rfl, fun hd => by cases hd⟩

/-- All that an operation can do. -/
theorem did_effect {i : Instr} {s t : State} (h : exec i s = .next t) : Did i s (effect i s) t := by
  cases hi : isProcess i with
  | false =>
    rw [effect_eq_ownEffect hi]
    exact did_ownEffect hi h
  | true =>
    cases i with
    | cmdProcess wb =>
      obtain ⟨hprocess, hrelay⟩ := decodeFrame_isRow s.draw wb
      rw [exec_cmdProcess] at h
      obtain ⟨r, ht, hd⟩ := did_ownEffect hprocess h
      refine ⟨r, ht, fun hr => ?_⟩
      rw [(hd hr).1] at hrelay
      cases hrelay
    | _ => cases hi

/-! #### Frames of the effect (rules R8, R37, R274) -/

theorem ownEffect_sameOutside (i : Instr) (s : State) : SameOutside s (ownEffect i s) := by
  unfold ownEffect
  split <;> exact sameOutside_refl s

theorem ownEffect_results (i : Instr) (s : State) : (ownEffect i s).results = s.results := by
  unfold ownEffect
  split <;> rfl

theorem ownEffect_sameRelay {i : Instr} (h : isRelay i = false) (s : State) :
    SameRelay s (ownEffect i s) := by
  unfold ownEffect
  split
  case h_4 | h_5 => cases h
  all_goals exact sameRelay_refl s

theorem effect_sameOutside (i : Instr) (s : State) : SameOutside s (effect i s) := by
  unfold effect
  split
  · exact ownEffect_sameOutside _ s.drawn
  · exact ownEffect_sameOutside _ s

theorem effect_results (i : Instr) (s : State) : (effect i s).results = s.results := by
  unfold effect
  split
  · exact ownEffect_results _ s.drawn
  · exact ownEffect_results _ s

theorem effect_sameRelay {i : Instr} (h : isRelay i = false) (s : State) :
    SameRelay s (effect i s) := by
  unfold effect
  split
  · exact ownEffect_sameRelay (decodeFrame_isRow _ _).2 s.drawn
  · exact ownEffect_sameRelay h s

theorem effect_sameDevice {i : Instr} (h : isRelay i = true) (s : State) :
    SameDevice s (effect i s) := by
  cases i with
  | rlyPush m => exact sameDevice_refl s
  | rlyTake => exact sameDevice_refl s
  | _ => cases h

theorem effect_sameBlock {i : Instr} (h : isPure i = true) (s : State) : SameBlock s (effect i s) := by
  unfold effect ownEffect
  cases i with
  | crc16 | pktEncode | pktDecode | pktValidate | pktBuildResponse | canToWire | canFromWire
    | canIdEncode | canIdDecode | canTxFrame | canRxFrame =>
    exact ⟨sameRelay_refl s, sameDevice_refl s⟩
  | _ => cases h

/-- Settles O42: a pure operation's effect is at most a used draw. -/
theorem pureOperationsLeaveState : Obligations.PureOperationsLeaveState := by
  intro i s t hpure h
  obtain ⟨r, rfl, -⟩ := did_effect h
  exact ⟨effect_sameBlock hpure s, effect_sameOutside i s, r, congrArg _ (effect_results i s)⟩

/-- Settles O43: the effect of a relay operation and that of any other. -/
theorem pathsAreIsolated : Obligations.PathsAreIsolated := by
  intro i s t h
  obtain ⟨r, rfl, -⟩ := did_effect h
  exact ⟨fun hi => effect_sameDevice hi s, fun hi => effect_sameRelay hi s, effect_sameOutside i s, r,
    congrArg _ (effect_results i s)⟩

/-! #### `deviceStatus` (rules R24, R189) -/

theorem ownEffect_deviceStatus {i : Instr} {s : State}
    (h : (ownEffect i s).deviceStatus ≠ s.deviceStatus) :
    (∃ v rest, i = .write (v :: rest) ∧ (ownEffect i s).deviceStatus = v) ∨
      (∃ payload, i = .reset payload ∧ (ownEffect i s).deviceStatus = 0#8) := by
  cases i with
  | write payload =>
    cases payload with
    | nil => exact absurd rfl h
    | cons v rest => exact .inl ⟨v, rest, rfl, rfl⟩
  | reset payload => exact .inr ⟨payload, rfl, rfl⟩
  | _ => exact absurd rfl h

/-- Settles O44: the effects that write `deviceStatus` are WRITE's and RESET's, and CMD.PROCESS has the
effect of its frame's row. -/
theorem onlyWriteAndResetSetStatus : Obligations.OnlyWriteAndResetSetStatus := by
  intro i s t h hne
  obtain ⟨r, rfl, -⟩ := did_effect h
  cases hi : isProcess i with
  | false =>
    rw [State.record_deviceStatus, effect_eq_ownEffect hi] at hne ⊢
    rcases ownEffect_deviceStatus hne with hw | hr
    · exact .inl hw
    · exact .inr (.inl hr)
  | true =>
    cases i with
    | cmdProcess wb =>
      exact .inr (.inr ⟨wb, rfl, ownEffect_deviceStatus (s := s.drawn) hne⟩)
    | _ => cases hi

/-! #### Sequences: the two counters (rules R39, R188, R251) -/

theorem runOps_cons_eq_next {i : Instr} {is : List Instr} {s t : State} :
    runOps (i :: is) s = .next t ↔ ∃ u, exec i s = .next u ∧ runOps is u = .next t :=
  andThen_eq_next

/-- A counter that each operation steps by one where `p` holds, and leaves alone elsewhere, counts `p`
over a sequence. -/
theorem runOps_counts {counter : State → U32} {p : Instr → Bool} {is : List Instr}
    (hstep : ∀ i ∈ is, ∀ s t, exec i s = .next t →
      counter t = counter s + if p i then 1 else 0) {s t : State} (h : runOps is s = .next t) :
    counter t = counter s + BitVec.ofNat 32 (is.countP p) := by
  induction is generalizing s with
  | nil =>
    cases h
    simp
  | cons i is ih =>
    obtain ⟨u, hi, his⟩ := runOps_cons_eq_next.mp h
    rw [ih (fun j hj => hstep j (List.mem_cons_of_mem i hj)) his,
      hstep i List.mem_cons_self s u hi, List.countP_cons, BitVec.add_assoc, Nat.add_comm,
      BitVec.ofNat_add]
    split <;> rfl

/-- RLY.PUSH and RLY.TAKE are the operations of the relay. -/
theorem isRelay_cases (i : Instr) :
    isRelay i = false ∨ (∃ m, i = .rlyPush m) ∨ i = .rlyTake := by
  cases i with
  | rlyPush m => exact .inr (.inl ⟨m, rfl⟩)
  | rlyTake => exact .inr (.inr rfl)
  | _ => exact .inl rfl

theorem isPush_of_not_isRelay {i : Instr} (h : isRelay i = false) : isPush i = false := by
  cases i with
  | rlyPush m => cases h
  | _ => rfl

theorem exec_tsCtr {i : Instr} {s t : State} (h : exec i s = .next t) :
    t.tsCtr = s.tsCtr + if isPush i then 1 else 0 := by
  obtain ⟨r, rfl, -⟩ := did_effect h
  rcases isRelay_cases i with hi | ⟨m, rfl⟩ | rfl
  · obtain ⟨-, -, hts⟩ := effect_sameRelay hi s
    simpa [isPush_of_not_isRelay hi] using hts
  · rfl
  · exact (BitVec.add_zero _).symm

/-- Settles O40: every operation steps `ts_ctr` by one if it is a push, and leaves it alone if not. -/
theorem stampCounterCountsPushes : Obligations.StampCounterCountsPushes := fun _ _ _ h =>
  runOps_counts (fun _ _ _ _ => exec_tsCtr) h

theorem exec_packetCounter {i : Instr} {s t : State} (hprocess : isProcess i = false)
    (hreset : isResetRow i = false) (h : exec i s = .next t) :
    t.packetCounter = s.packetCounter + if countsUp i then 1 else 0 := by
  obtain ⟨r, rfl, -⟩ := did_ownEffect hprocess h
  cases i with
  | reset payload => cases hreset
  | cmdProcess wb => cases hprocess
  | write payload => cases payload <;> rfl
  | read | status | version | echoString | unknownCmd => rfl
  | _ => exact (BitVec.add_zero _).symm

/-- Settles O27: every row of the sequence counts itself, and a RESET before it leaves the counter at 1. -/
theorem counterCountsDispatches : Obligations.CounterCountsDispatches := by
  have counts {is : List Instr} {s t : State}
      (his : ∀ i ∈ is, isProcess i = false ∧ isResetRow i = false) (h : runOps is s = .next t) :
      t.packetCounter = s.packetCounter + BitVec.ofNat 32 (is.countP countsUp) :=
    runOps_counts (fun i hi _ _ => exec_packetCounter (his i hi).1 (his i hi).2) h
  refine ⟨fun is s t => counts, fun payload is s t his h => ?_⟩
  obtain ⟨u, hreset, hrun⟩ := runOps_cons_eq_next.mp h
  rw [exec_reset] at hreset
  rw [counts his hrun, answer_eq_next.mp hreset, BitVec.ofNat_add]
  rfl

/-! #### The relay: what is pushed, taken and lost (rules R240 to R251) -/

theorem exec_rlyPush (m : CanMessage) (s : State) :
    exec (.rlyPush m) s
      = .next ((s.fillSlot { m with timestamp := s.tsCtr }).countFrame.record .done) := rfl

/-- Settles O37: the stamp is read before the counter steps. -/
theorem pushOverwritesAndStamps : Obligations.PushOverwritesAndStamps := exec_rlyPush

/-- Pushes always complete, and count. -/
theorem runOps_pushes (ms : List CanMessage) (s : State) :
    ∃ t, runOps (ms.map .rlyPush) s = .next t ∧ t.tsCtr = s.tsCtr + BitVec.ofNat 32 ms.length := by
  have completes (s : State) : ∃ t, runOps (ms.map .rlyPush) s = .next t := by
    induction ms generalizing s with
    | nil => exact ⟨s, rfl⟩
    | cons m ms ih => exact ih _
  obtain ⟨t, ht⟩ := completes s
  have all_push : (ms.map Instr.rlyPush).countP isPush = ms.length := by
    rw [List.countP_map]
    exact List.countP_eq_length.mpr fun _ _ => rfl
  exact ⟨t, ht, all_push ▸ stampCounterCountsPushes _ _ _ ht⟩

/-- A push and two takes: the message with its stamp, then `None`. -/
theorem runOps_push_take_take (m : CanMessage) (s : State) :
    runOps [.rlyPush m, .rlyTake, .rlyTake] s
      = .next (((s.fillSlot { m with timestamp := s.tsCtr }).countFrame.record .done).emptySlot.record
          (.taken (some { m with timestamp := s.tsCtr })) |>.record (.taken none)) := rfl

/-- Settles O39: the invariant ties the first stamp to the counter, which then counts the pushes. -/
theorem lossShowsInTheStamps : Obligations.LossShowsInTheStamps := by
  intro s ms m hinv hfull
  have htake : runOps [.rlyTake] s = .next (s.emptySlot.record (.taken (some s.slotMsg))) := by
    rw [runOps, exec_rlyTake_full hfull]; rfl
  obtain ⟨t, ht, hts⟩ := runOps_pushes ms (s.emptySlot.record (.taken (some s.slotMsg)))
  have stamp : s.slotMsg.timestamp + BitVec.ofNat 32 (ms.length + 1) = t.tsCtr := by
    rw [hinv hfull, hts, State.record_tsCtr, State.emptySlot_tsCtr, BitVec.ofNat_add]
    bv_omega
  have hrun : runOps ([.rlyTake] ++ ms.map .rlyPush ++ [.rlyPush m, .rlyTake, .rlyTake]) s
      = runOps [.rlyPush m, .rlyTake, .rlyTake] t := by
    rw [runOps_append, runOps_append, htake, andThen_next, ht, andThen_next]
  exact ⟨_, hrun.trans (runOps_push_take_take m t), by rw [stamp]; rfl, rfl⟩

/-- The messages delivered, and the one still held. -/
def deliveredOrHeld (s : State) : Nat :=
  s.results.countP delivers + if s.slotState = .full then 1 else 0

/-- Only a push adds to them: a take moves the held message to the delivered ones. -/
theorem exec_deliveredOrHeld {i : Instr} {s t : State} (h : exec i s = .next t) :
    deliveredOrHeld t ≤ deliveredOrHeld s + if isPush i then 1 else 0 := by
  rcases isRelay_cases i with hi | ⟨m, rfl⟩ | rfl
  · obtain ⟨r, rfl, hr⟩ := did_effect h
    have hnot : ¬ delivers r = true := fun hd => by rw [(hr hd).1] at hi; cases hi
    obtain ⟨hslot, -, -⟩ := effect_sameRelay hi s
    simp [deliveredOrHeld, effect_results, hnot, hslot]
  · rw [exec_rlyPush] at h; cases h
    simp [deliveredOrHeld, isPush, delivers]
  · cases hs : s.slotState with
    | full =>
      rw [exec_rlyTake_full hs] at h; cases h
      simp [deliveredOrHeld, List.countP_cons, delivers, isPush, hs]
    | empty =>
      rw [exec_rlyTake_empty hs] at h; cases h
      simp [deliveredOrHeld, delivers, isPush, hs]

theorem runOps_deliveredOrHeld {is : List Instr} {s t : State} (h : runOps is s = .next t) :
    deliveredOrHeld t ≤ deliveredOrHeld s + is.countP isPush := by
  induction is generalizing s with
  | nil => cases h; exact Nat.le_refl _
  | cons i is ih =>
    obtain ⟨u, hi, his⟩ := runOps_cons_eq_next.mp h
    have head := exec_deliveredOrHeld hi
    have tail := ih his
    rw [List.countP_cons]
    omega

/-- Where the message in a full slot came from, over a sequence from `s`: the latest push, no relay
operation after it, or the slot was full at first and nothing touched the relay. -/
def Origin (is : List Instr) (s : State) (m : CanMessage) : Prop :=
  (∃ before m' after, is = before ++ .rlyPush m' :: after ∧ (∀ i ∈ after, isRelay i = false) ∧
    m = { m' with timestamp := s.tsCtr + BitVec.ofNat 32 (before.countP isPush) }) ∨
  ((∀ i ∈ is, isRelay i = false) ∧ s.slotState = .full ∧ m = s.slotMsg)

/-- A latest push stays the latest when an operation is put in front; its stamp counts from there. -/
theorem Origin.cons_of_push {i : Instr} {is before after : List Instr} {s u : State}
    {m' : CanMessage} (hi : exec i s = .next u) (his : is = before ++ .rlyPush m' :: after)
    (hafter : ∀ j ∈ after, isRelay j = false) :
    Origin (i :: is) s
      { m' with timestamp := u.tsCtr + BitVec.ofNat 32 (before.countP isPush) } := by
  refine .inl ⟨i :: before, m', after, by rw [his]; rfl, hafter, ?_⟩
  rw [exec_tsCtr hi, List.countP_cons, BitVec.add_assoc, Nat.add_comm, BitVec.ofNat_add]
  split <;> rfl

theorem origin_of_full {is : List Instr} {s t : State} (h : runOps is s = .next t)
    (hfull : t.slotState = .full) : Origin is s t.slotMsg := by
  induction is generalizing s with
  | nil =>
    cases h
    exact .inr ⟨List.forall_mem_nil _, hfull, rfl⟩
  | cons i is ih =>
    obtain ⟨u, hi, his⟩ := runOps_cons_eq_next.mp h
    rcases ih his with ⟨before, m', after, hsplit, hafter, hm⟩ | ⟨hnone, hu, hm⟩
    · rw [hm]
      exact .cons_of_push hi hsplit hafter
    · rw [hm]
      rcases isRelay_cases i with hnot | ⟨m', rfl⟩ | rfl
      · obtain ⟨r, rfl, -⟩ := did_effect hi
        obtain ⟨hslot, hmsg, -⟩ := effect_sameRelay hnot s
        exact .inr ⟨List.forall_mem_cons.mpr ⟨hnot, hnone⟩, hslot.symm.trans hu, hmsg⟩
      · rw [exec_rlyPush] at hi; cases hi
        exact .inl ⟨[], m', is, rfl, hnone, by simp⟩
      · obtain ⟨r, rfl, -⟩ := did_effect hi
        cases hu

/-- Settles O41: the count by `deliveredOrHeld`, the content by the slot's origin. -/
theorem deliveredAtMostOnce : Obligations.DeliveredAtMostOnce := by
  refine ⟨fun is s t h => runOps_deliveredOrHeld h, fun is s t u m h htake hm => ?_⟩
  cases ht : t.slotState with
  | full =>
    rw [exec_rlyTake_full ht] at htake; cases htake
    cases hm
    exact origin_of_full h ht
  | empty =>
    rw [exec_rlyTake_empty ht] at htake; cases htake
    cases hm

/-! #### The first answers after reset (rule R304) -/

/-- Settles O53: the slot is empty, and both counters and `deviceStatus` are zero. -/
theorem firstAnswersAfterReset : Obligations.FirstAnswersAfterReset := by
  refine ⟨⟨_, exec_rlyTake_empty rfl, rfl⟩, ⟨_, _, exec_read [] State.reset, rfl, ?_⟩,
    ⟨_, _, exec_status [] State.reset, rfl, ?_⟩, fun m => ⟨_, exec_rlyPush m State.reset, rfl⟩⟩
  · exact buildResponse_payload (by simp)
  · exact buildResponse_payload (by simp)

end Sys2Proof.Machine

/-! ### Invariants of the step: a full slot's stamp, legal outputs, an empty slot's hidden content -/

namespace Sys2Proof.Machine

/-! #### The bridge's operations are operations of the block -/

/-- All that an operation request can do: the operation it decodes to. -/
theorem issueOp_eq_next {a : Agent} {sel : BitVec 4} {operands : Operands} {s t : State}
    (h : issueOp a sel operands s = .next t) : ∃ i, exec i s = .next t := by
  unfold issueOp at h
  split at h
  · split at h
    · exact ⟨_, h⟩
    · cases h
  · cases h
  · cases h

theorem issueOp_of_decodeOp {a : Agent} {sel : BitVec 4} {operands : Operands} {i : Instr}
    (hdec : decodeOp sel operands = .ok i) (s : State) :
    issueOp a sel operands s = if mayIssue a i then exec i s else .refused .wrongAgent := by
  rw [issueOp, hdec]

theorem runTask_encodeResponse (r : Packet) (s : State) :
    runTask (.encodeResponse r) s = inContract (exec (.pktEncode r) s) := rfl

theorem runTask_buildFrame (m : CanMessage) (s : State) :
    runTask (.buildFrame m) s = inContract (exec (.canTxFrame m) s) := rfl

theorem canTransfer_eq (bytes : List Byte) (s : State) :
    canTransfer bytes s = inContract (exec (.canFromWire bytes bytes.length) s) := rfl

theorem pollRelay_eq (s : State) : pollRelay s = inContract (exec .rlyTake s) := rfl

/-- A frame arrival is CAN.RX_FRAME and the push of its result. -/
theorem frameArrives_eq_push (f : HwFrame) (s : State) :
    frameArrives f s = exec (.rlyPush (rxFrame f)) (s.record (.received (rxFrame f))) := rfl

theorem runOps_one (i : Instr) (s : State) : runOps [i] s = exec i s := by
  cases h : exec i s <;> simp [runOps, andThen, h]

theorem runOps_pair (i j : Instr) (s : State) : runOps [i, j] s = andThen (exec i s) (exec j) :=
  congrArg (andThen (exec i s)) (funext (runOps_one j))

/-- The two serial orders of a coincident push and take. -/
theorem coincide_eq (m : CanMessage) (s : State) :
    coincide m s = if Config.drawPushFirst s.draws then runOps [.rlyPush m, .rlyTake] s.drawn
      else runOps [.rlyTake, .rlyPush m] s.drawn := by
  rw [runOps_pair, runOps_pair]
  rfl

/-! #### A full slot holds the stamp of the latest push (rule R39) -/

/-- Settles O57: the slot is empty at reset. -/
theorem stampInvAtReset : Obligations.StampInvAtReset := fun h => by cases h

theorem stampInv_of_sameRelay {s t : State} (h : SameRelay s t) (hs : StampInv s) : StampInv t := by
  obtain ⟨hslot, hmsg, hts⟩ := h
  rw [StampInv, hslot, hmsg, hts]
  exact hs

theorem exec_keeps_stampInv {i : Instr} {s t : State} (hs : StampInv s) (h : exec i s = .next t) :
    StampInv t := by
  obtain ⟨r, rfl, -⟩ := did_effect h
  rcases isRelay_cases i with hi | ⟨m, rfl⟩ | rfl
  · exact stampInv_of_sameRelay (effect_sameRelay hi s) hs
  · exact fun _ => (BitVec.add_sub_cancel s.tsCtr 1).symm
  · intro hfull
    cases hfull

theorem inContract_keeps_stampInv {i : Instr} {s t : State} (hs : StampInv s)
    (h : inContract (exec i s) = .next t) : StampInv t := by
  obtain ⟨u, hu, rfl⟩ := inContract_eq_next.mp h
  exact stampInv_of_sameRelay (sameRelay_refl u) (exec_keeps_stampInv hs hu)

theorem runOps_keeps_stampInv {is : List Instr} {s t : State} (hs : StampInv s)
    (h : runOps is s = .next t) : StampInv t := by
  induction is generalizing s with
  | nil => cases h; exact hs
  | cons i is ih =>
    obtain ⟨u, hi, his⟩ := runOps_cons_eq_next.mp h
    exact ih (exec_keeps_stampInv hs hi) his

theorem runMainline_keeps_stampInv {s t : State} (hs : StampInv s) (h : runMainline s = .next t) :
    StampInv t := by
  cases hk : s.task with
  | none => rw [runMainline_none hk] at h; cases h; exact hs
  | some k =>
    rw [runMainline_some hk] at h
    have hs' : StampInv (s.setTask none) := hs
    cases k with
    | encodeResponse r => exact inContract_keeps_stampInv (i := .pktEncode r) hs' h
    | buildFrame m => exact inContract_keeps_stampInv (i := .canTxFrame m) hs' h
    | serialise m => exact inContract_keeps_stampInv (i := .canToWire m) hs' h
    | writeControl wb => cases h; exact hs
    | sendFrame f => cases h; exact hs
    | writeCan cb => cases h; exact hs

theorem runInput_keeps_stampInv {x : Input} {s t : State} (hs : StampInv s)
    (h : runInput x s = .next t) : StampInv t := by
  cases x with
  | issue a sel operands =>
    obtain ⟨i, hi⟩ := issueOp_eq_next h
    exact exec_keeps_stampInv hs hi
  | controlIn wb => exact inContract_keeps_stampInv (s := s.drawn) hs h
  | canIn bytes => exact inContract_keeps_stampInv (i := .canFromWire bytes bytes.length) hs h
  | relayPoll => exact inContract_keeps_stampInv (i := .rlyTake) hs h
  | frameArrival f =>
    rw [runInput, frameArrives_eq_push] at h
    exact exec_keeps_stampInv (s := s.record (.received (rxFrame f))) hs h
  | mainline => exact runMainline_keeps_stampInv hs h
  | coincidence m =>
    rw [runInput, coincide_eq] at h
    split at h <;> exact runOps_keeps_stampInv (s := s.drawn) hs h
  | reset => cases h; intro hfull; cases hfull

/-- Settles O58: M's next operation and every element of the issued sequence keep the invariant. -/
theorem stepKeepsStampInv : Obligations.StepKeepsStampInv := by
  intro s t hs h
  rcases step_cases s with hm | ⟨x, rest, -, -, hx⟩
  · rw [hm] at h
    exact runMainline_keeps_stampInv hs h
  · rw [hx] at h
    exact runInput_keeps_stampInv (s := { s with inputs := rest }) hs h

/-! #### Legal outputs (rules R80, R97, R100, R285) -/

theorem outputsOk_of_sameOutside {s t : State} (h : SameOutside s t) (hs : OutputsOk s) :
    OutputsOk t := by
  obtain ⟨-, htask, hcontrol, hcan, hframes⟩ := h
  rw [OutputsOk, htask, hcontrol, hcan, hframes]
  exact hs

theorem outputsOk_setTask {s : State} {k : Option BridgeTask} (hs : OutputsOk s)
    (hk : ∀ x ∈ k, TaskOk x) : OutputsOk (s.setTask k) := ⟨hk, hs.2⟩

/-- A response's wire image is a control buffer. -/
theorem controlBufferOk_encodePacket {r : Packet} (draw : Nat → Byte)
    (h : TaskOk (.encodeResponse r)) : ControlBufferOk (encodePacket 64 draw r) := by
  obtain ⟨hheader, hlen⟩ := h
  have himage := length_frameImage hlen
  refine ⟨length_encodePacket 64 draw r, ?_, ?_⟩
  · rw [getElem?_encodePacket_of_lt draw (by omega) (by omega)]
    exact congrArg (fun p => some p.1) hheader
  · rw [getElem?_encodePacket_of_lt draw (by omega) (by omega)]
    exact congrArg (fun p => some p.2) hheader

/-- CAN.TX_FRAME aligns the identifier (rule R100). -/
theorem sentFrameOk_txFrame {m : CanMessage} (h : m.length.toNat ≤ 8) : SentFrameOk (txFrame m) := by
  refine ⟨h, ?_⟩
  rcases Nat.lt_or_ge 0x7FF m.id.toNat with hid | hid
  · simp only [txFrame, idEncode_extended hid, BitVec.toNat_shiftLeft, Nat.shiftLeft_eq]
    simp
  · simp only [txFrame, idEncode_standard hid, BitVec.toNat_shiftLeft, Nat.shiftLeft_eq]
    simp

/-- An operation of a contract keeps the outputs legal if its result asks M for a legal task. -/
theorem inContract_keeps_outputsOk {i : Instr} {s t : State} (hs : OutputsOk s)
    (htask : ∀ u r, exec i s = .next u → u.lastResult = some r → ∀ k ∈ nextTask r, TaskOk k)
    (h : inContract (exec i s) = .next t) : OutputsOk t := by
  obtain ⟨u, hu, rfl⟩ := inContract_eq_next.mp h
  obtain ⟨r, rfl, -⟩ := did_effect hu
  exact outputsOk_setTask (outputsOk_of_sameOutside (effect_sameOutside i s) hs) (htask _ r hu rfl)

/-- The three results that ask M for a task with an obligation of its own. -/
theorem taskOk_of_pktEncode {r : Packet} (hr : TaskOk (.encodeResponse r)) {s u : State} {o : Result}
    (h : exec (.pktEncode r) s = .next u) (ho : u.lastResult = some o) :
    ∀ k ∈ nextTask o, TaskOk k := by
  rw [exec_pktEncode hr.2] at h
  cases h; cases ho
  rintro k ⟨⟩
  exact controlBufferOk_encodePacket s.draw hr

theorem taskOk_of_canTxFrame {m : CanMessage} {s u : State} {o : Result}
    (h : exec (.canTxFrame m) s = .next u) (ho : u.lastResult = some o) :
    ∀ k ∈ nextTask o, TaskOk k := by
  rcases Nat.lt_or_ge 8 m.length.toNat with hm | hm
  · rw [exec_canTxFrame_oversized hm] at h
    cases h
  · rw [exec_canTxFrame hm] at h
    cases h; cases ho
    rintro k ⟨⟩
    exact sentFrameOk_txFrame hm

theorem taskOk_of_decodeFrame {draw : Nat → Byte} {wb : List Byte} {s u : State} {o : Result}
    (h : exec (decodeFrame draw wb) s = .next u) (ho : u.lastResult = some o) :
    ∀ k ∈ nextTask o, TaskOk k := by
  rcases exec_decodeFrame draw wb s with ⟨v, cid, d, hd, hv, -⟩ | ⟨hrefused, -⟩
  · rw [hv] at h
    cases h; cases ho
    rintro k ⟨⟩
    exact ⟨buildResponse_header cid d, (buildResponse_length hd).trans_le hd⟩
  · rw [hrefused] at h
    cases h

theorem runTask_keeps_outputsOk {k : BridgeTask} {s t : State} (hs : OutputsOk s) (hk : TaskOk k)
    (h : runTask k s = .next t) : OutputsOk t := by
  have houtputs := hs
  obtain ⟨htask, hcontrol, hcan, hframes⟩ := houtputs
  cases k with
  | encodeResponse r =>
    exact inContract_keeps_outputsOk (i := .pktEncode r) hs (fun _ _ => taskOk_of_pktEncode hk) h
  | buildFrame m =>
    exact inContract_keeps_outputsOk (i := .canTxFrame m) hs (fun _ _ => taskOk_of_canTxFrame) h
  | serialise m =>
    refine inContract_keeps_outputsOk (i := .canToWire m) hs (fun u o hu ho => ?_) h
    cases hu; cases ho
    rintro k ⟨⟩
    exact length_toWire m
  | writeControl wb =>
    cases h
    exact ⟨htask, List.forall_mem_cons.mpr ⟨hk, hcontrol⟩, hcan, hframes⟩
  | sendFrame f =>
    cases h
    exact ⟨htask, hcontrol, hcan, List.forall_mem_cons.mpr ⟨hk, hframes⟩⟩
  | writeCan cb =>
    cases h
    exact ⟨htask, hcontrol, List.forall_mem_cons.mpr ⟨hk, hcan⟩, hframes⟩

theorem runMainline_keeps_outputsOk {s t : State} (hs : OutputsOk s) (h : runMainline s = .next t) :
    OutputsOk t := by
  cases hk : s.task with
  | none => rw [runMainline_none hk] at h; cases h; exact hs
  | some k =>
    rw [runMainline_some hk] at h
    exact runTask_keeps_outputsOk (outputsOk_setTask hs (by simp)) (hs.1 k hk) h

theorem exec_keeps_outputsOk {i : Instr} {s t : State} (hs : OutputsOk s) (h : exec i s = .next t) :
    OutputsOk t := by
  obtain ⟨r, rfl, -⟩ := did_effect h
  exact outputsOk_of_sameOutside (effect_sameOutside i s) hs

theorem runOps_keeps_outputsOk {is : List Instr} {s t : State} (hs : OutputsOk s)
    (h : runOps is s = .next t) : OutputsOk t := by
  induction is generalizing s with
  | nil => cases h; exact hs
  | cons i is ih =>
    obtain ⟨u, hi, his⟩ := runOps_cons_eq_next.mp h
    exact ih (exec_keeps_outputsOk hs hi) his

theorem runInput_keeps_outputsOk {x : Input} {s t : State} (hs : OutputsOk s)
    (h : runInput x s = .next t) : OutputsOk t := by
  cases x with
  | issue a sel operands =>
    obtain ⟨i, hi⟩ := issueOp_eq_next h
    exact exec_keeps_outputsOk hs hi
  | controlIn wb =>
    exact inContract_keeps_outputsOk (i := decodeFrame s.draw wb) (s := s.drawn) hs
      (fun _ _ => taskOk_of_decodeFrame) h
  | canIn bytes =>
    refine inContract_keeps_outputsOk (i := .canFromWire bytes bytes.length) hs (fun u o hu ho => ?_) h
    cases hu; cases ho
    cases fromWire s.draw bytes bytes.length with
    | none => rintro k ⟨⟩
    | some m => rintro k ⟨⟩; trivial
  | relayPoll =>
    refine inContract_keeps_outputsOk (i := .rlyTake) hs (fun u o hu ho => ?_) h
    cases hslot : s.slotState with
    | full => rw [exec_rlyTake_full hslot] at hu; cases hu; cases ho; rintro k ⟨⟩; trivial
    | empty => rw [exec_rlyTake_empty hslot] at hu; cases hu; cases ho; rintro k ⟨⟩
  | frameArrival f =>
    rw [runInput, frameArrives_eq_push] at h
    exact exec_keeps_outputsOk (s := s.record (.received (rxFrame f))) hs h
  | mainline => exact runMainline_keeps_outputsOk hs h
  | coincidence m =>
    rw [runInput, coincide_eq] at h
    split at h <;> exact runOps_keeps_outputsOk (s := s.drawn) hs h
  | reset =>
    cases h
    exact ⟨by simp, hs.2⟩

theorem outputsOk_reset : OutputsOk State.reset := by
  simp [OutputsOk, State.reset]

/-- Settles O59: M's task says what it will hand over next, so each operation of a contract keeps both
halves. -/
theorem stepKeepsOutputsOk : Obligations.StepKeepsOutputsOk := by
  refine ⟨outputsOk_reset, fun s t hs h => ?_⟩
  rcases step_cases s with hm | ⟨x, rest, -, -, hx⟩
  · rw [hm] at h
    exact runMainline_keeps_outputsOk hs h
  · rw [hx] at h
    exact runInput_keeps_outputsOk (s := { s with inputs := rest }) hs h

/-! #### The content of an empty slot (rule R23) -/

/-- The state with another message in its slot. -/
def State.withSlotMsg (m : CanMessage) (s : State) : State := { s with slotMsg := m }

theorem slotState_eq_empty {x : SlotState} (h : x ≠ .full) : x = .empty := by
  cases x with
  | full => exact absurd rfl h
  | empty => rfl

/-- Two states equal but for hidden content are equal, or the slot is empty and its content alone
differs. -/
theorem SameButHiddenSlot.cases {s t : State} (h : SameButHiddenSlot s t) :
    t = s ∨ (s.slotState = .empty ∧ ∃ m, t = s.withSlotMsg m) := by
  obtain ⟨ht, hfull⟩ := h
  by_cases hs : s.slotState = .full
  · exact .inl (by rw [ht, hfull hs])
  · exact .inr ⟨slotState_eq_empty hs, t.slotMsg, ht⟩

theorem sameButHiddenSlot_refl (s : State) : SameButHiddenSlot s s := ⟨rfl, fun _ => rfl⟩

theorem sameButHiddenSlot_of_empty {s : State} (h : s.slotState = .empty) (m : CanMessage) :
    SameButHiddenSlot s (s.withSlotMsg m) :=
  ⟨rfl, fun hfull => by rw [h] at hfull; cases hfull⟩

theorem sameOutcome_refl (o : Out) : SameOutcome o o := by
  cases o with
  | next s => exact sameButHiddenSlot_refl s
  | fault r => exact nomatch r
  | refused r => exact rfl

theorem SameOutcome.andThen {o p : Out} {f g : State → Out} (h : SameOutcome o p)
    (hfg : ∀ u v, SameButHiddenSlot u v → SameOutcome (f u) (g v)) :
    SameOutcome (andThen o f) (andThen p g) := by
  cases o with
  | fault r => exact nomatch r
  | next u =>
    cases p with
    | fault r => exact nomatch r
    | next v => exact hfg u v h
    | refused q => exact h.elim
  | refused r =>
    cases p with
    | fault r => exact nomatch r
    | next v => exact h.elim
    | refused q => exact h

/-- An operation but CMD.PROCESS reads the slot's content only where the slot is full. -/
theorem exec_sameOutcome_own {i : Instr} (hi : isProcess i = false) {s : State} (he : s.slotState = .empty)
    (m : CanMessage) : SameOutcome (exec i s) (exec i (s.withSlotMsg m)) := by
  have hidden {u : State} (hu : u.slotState = .empty) :
      SameOutcome (.next u) (.next (u.withSlotMsg m)) := sameButHiddenSlot_of_empty hu m
  cases i with
  | cmdProcess wb => cases hi
  | rlyPush m' => exact sameOutcome_refl _
  | rlyTake =>
    rw [exec_rlyTake_empty he, exec_rlyTake_empty (s := s.withSlotMsg m) he]
    exact hidden (u := s.record _) he
  | pktEncode p =>
    rcases Nat.lt_or_ge 60 p.dataLength.toNat with hp | hp
    · rw [exec_pktEncode_oversized hp, exec_pktEncode_oversized hp]; rfl
    · rw [exec_pktEncode hp, exec_pktEncode hp]; exact hidden (u := s.drawn.record _) he
  | pktBuildResponse req cid d =>
    rcases Nat.lt_or_ge 60 d.length with hd | hd
    · rw [exec_pktBuildResponse_oversized hd, exec_pktBuildResponse_oversized hd]; rfl
    · rw [exec_pktBuildResponse hd, exec_pktBuildResponse hd]; exact hidden (u := s.record _) he
  | canTxFrame m' =>
    rcases Nat.lt_or_ge 8 m'.length.toNat with hm | hm
    · rw [exec_canTxFrame_oversized hm, exec_canTxFrame_oversized hm]; rfl
    · rw [exec_canTxFrame hm, exec_canTxFrame hm]; exact hidden (u := s.record _) he
  | write payload => cases payload <;> exact hidden he
  | echoString payload =>
    rcases Nat.eq_zero_or_pos payload.length with h0 | h0
    · rw [List.eq_nil_of_length_eq_zero h0]; exact hidden (u := s.countPacket.record _) he
    rcases Nat.lt_or_ge payload.length 60 with hlt | hge
    · rw [exec_echoString_fits h0 hlt, exec_echoString_fits h0 hlt]
      exact hidden (u := s.countPacket.record _) he
    · rw [exec_echoString_oversized hge, exec_echoString_oversized hge]; rfl
  | _ => exact hidden he

theorem exec_sameOutcome (i : Instr) {s t : State} (h : SameButHiddenSlot s t) :
    SameOutcome (exec i s) (exec i t) := by
  rcases h.cases with rfl | ⟨he, m, rfl⟩
  · exact sameOutcome_refl _
  cases hi : isProcess i with
  | false => exact exec_sameOutcome_own hi he m
  | true =>
    cases i with
    | cmdProcess wb =>
      rw [exec_cmdProcess, exec_cmdProcess]
      exact exec_sameOutcome_own (decodeFrame_isRow _ _).1 (s := s.drawn) he m
    | _ => cases hi

theorem runOps_sameOutcome (is : List Instr) {s t : State} (h : SameButHiddenSlot s t) :
    SameOutcome (runOps is s) (runOps is t) := by
  induction is generalizing s t with
  | nil => exact h
  | cons i is ih => exact (exec_sameOutcome i h).andThen fun _ _ => ih

/-- What M does next depends on the result alone. -/
theorem inContract_sameOutcome {o p : Out} (h : SameOutcome o p) :
    SameOutcome (inContract o) (inContract p) := by
  refine h.andThen fun u v huv => ?_
  rcases huv.cases with rfl | ⟨he, m, rfl⟩
  · exact sameOutcome_refl _
  · exact sameButHiddenSlot_of_empty (s := u.setTask (u.lastResult.bind nextTask)) he m

theorem runTask_sameOutcome (k : BridgeTask) {s : State} (he : s.slotState = .empty) (m : CanMessage) :
    SameOutcome (runTask k s) (runTask k (s.withSlotMsg m)) := by
  have hidden := sameButHiddenSlot_of_empty he m
  cases k with
  | encodeResponse r => exact inContract_sameOutcome (exec_sameOutcome (.pktEncode r) hidden)
  | buildFrame m' => exact inContract_sameOutcome (exec_sameOutcome (.canTxFrame m') hidden)
  | serialise m' => exact inContract_sameOutcome (exec_sameOutcome (.canToWire m') hidden)
  | writeControl wb => exact sameButHiddenSlot_of_empty (s := s.writeControl wb) he m
  | sendFrame f => exact sameButHiddenSlot_of_empty (s := s.sendFrame f) he m
  | writeCan cb => exact sameButHiddenSlot_of_empty (s := s.writeCan cb) he m

theorem runMainline_sameOutcome {s : State} (he : s.slotState = .empty) (m : CanMessage) :
    SameOutcome (runMainline s) (runMainline (s.withSlotMsg m)) := by
  cases hk : s.task with
  | none =>
    rw [runMainline_none hk, runMainline_none (s := s.withSlotMsg m) hk]
    exact sameButHiddenSlot_of_empty he m
  | some k =>
    rw [runMainline_some hk, runMainline_some (s := s.withSlotMsg m) hk]
    exact runTask_sameOutcome k (s := s.setTask none) he m

theorem issueOp_sameOutcome (a : Agent) (sel : BitVec 4) (operands : Operands) {s t : State}
    (h : SameButHiddenSlot s t) : SameOutcome (issueOp a sel operands s) (issueOp a sel operands t) := by
  unfold issueOp
  split
  · split
    · exact exec_sameOutcome _ h
    · rfl
  · rfl
  · rfl

theorem runInput_sameOutcome (x : Input) {s : State} (he : s.slotState = .empty) (m : CanMessage) :
    SameOutcome (runInput x s) (runInput x (s.withSlotMsg m)) := by
  have hidden := sameButHiddenSlot_of_empty he m
  have hiddenDrawn := sameButHiddenSlot_of_empty (s := s.drawn) he m
  cases x with
  | issue a sel operands => exact issueOp_sameOutcome a sel operands hidden
  | controlIn wb => exact inContract_sameOutcome (exec_sameOutcome (decodeFrame s.draw wb) hiddenDrawn)
  | canIn bytes => exact inContract_sameOutcome (exec_sameOutcome (.canFromWire bytes bytes.length) hidden)
  | relayPoll => exact inContract_sameOutcome (exec_sameOutcome .rlyTake hidden)
  | frameArrival f =>
    exact exec_sameOutcome (.rlyPush (rxFrame f))
      (sameButHiddenSlot_of_empty (s := s.record (.received (rxFrame f))) he m)
  | mainline => exact runMainline_sameOutcome he m
  | coincidence m' =>
    rw [runInput, runInput, coincide_eq, coincide_eq]
    show SameOutcome _ (if Config.drawPushFirst s.draws then _ else _)
    split <;> exact runOps_sameOutcome _ hiddenDrawn
  | reset => exact sameOutcome_refl _

theorem step_eq_of_nil {s : State} (h : s.inputs = []) : step s = runMainline s := by
  rw [step, stepInput, h]

theorem step_eq_of_cons {s : State} {x : Input} {rest : List Input} (h : s.inputs = x :: rest) :
    step s = if s.task.isSome && needsMainline x then runMainline s
      else runInput x { s with inputs := rest } := by
  rw [step, stepInput, h]

/-- Settles O60: an operation reads the content of a full slot only, and which element runs does not
depend on the slot. -/
theorem emptySlotIsUnobservable : Obligations.EmptySlotIsUnobservable := by
  intro s t h
  rcases h.cases with rfl | ⟨he, m, rfl⟩
  · exact sameOutcome_refl _
  cases hin : s.inputs with
  | nil =>
    rw [step_eq_of_nil hin, step_eq_of_nil (s := s.withSlotMsg m) hin]
    exact runMainline_sameOutcome he m
  | cons x rest =>
    rw [step_eq_of_cons hin, step_eq_of_cons (s := s.withSlotMsg m) hin]
    show SameOutcome _ (if s.task.isSome && needsMainline x then _ else _)
    split
    · exact runMainline_sameOutcome he m
    · exact runInput_sameOutcome x (s := { s with inputs := rest }) he m

end Sys2Proof.Machine

/-! ### Steps of the issued sequence: requests, resets, arrivals, and the three bridge contracts -/

namespace Sys2Proof.Machine

/-! #### One step (rules R21, R36, R112, R300) -/

theorem setTask_eq_self {s : State} {k : Option BridgeTask} (h : s.task = k) : s.setTask k = s := by
  rw [State.setTask, ← h]

/-- An operation request runs when it is P's or M is in no contract. -/
theorem step_issue {s : State} {a : Agent} {sel : BitVec 4} {operands : Operands} {rest : List Input}
    (h : s.inputs = .issue a sel operands :: rest) (ha : a = .P ∨ s.task = none) :
    step s = issueOp a sel operands { s with inputs := rest } := by
  rcases ha with rfl | ht
  · exact step_cons h (.inr rfl)
  · exact step_cons h (.inl ht)

/-- Settles O45: one equation of the step per form of the sequence's head. -/
theorem stepRunsTheDecodedInstruction : Obligations.StepRunsTheDecodedInstruction := by
  refine fun s => ⟨step_idle, ?issued, ?control, fun k => step_task, ?mainline, ?idle⟩
  case issued =>
    intro a sel operands rest i hin ha hdec hmay
    rw [step_issue hin ha, issueOp_of_decodeOp hdec, if_pos hmay]
  case control =>
    intro wb rest i hin ht hdec
    cases hdec
    rw [step_cons hin (.inl ht)]
    rfl
  case mainline =>
    intro k rest ht hin
    rw [step_cons hin (.inr rfl)]
    exact runMainline_some (s := { s with inputs := rest }) ht
  case idle =>
    intro rest ht hin
    rw [step_cons hin (.inr rfl)]
    exact runMainline_none (s := { s with inputs := rest }) ht

theorem issueOp_wrongAgent {a : Agent} {sel : BitVec 4} {operands : Operands} {i : Instr}
    (hdec : decodeOp sel operands = .ok i) (h : mayIssue a i = false) (s : State) :
    issueOp a sel operands s = .refused .wrongAgent := by
  rw [issueOp_of_decodeOp hdec, h]
  rfl

theorem issueOp_noOperation {a : Agent} {sel : BitVec 4} {operands : Operands}
    (hdec : decodeOp sel operands = .reject .noOperation) (s : State) :
    issueOp a sel operands s = .refused .noOperation := by
  rw [issueOp, hdec]

/-- Selectors 0xE and 0xF select no operation, whatever the operands (rule R112). -/
theorem decodeOp_noOperation {sel : BitVec 4} (h : sel = 0xE#4 ∨ sel = 0xF#4) (operands : Operands) :
    decodeOp sel operands = .reject .noOperation := by
  rcases h with rfl | rfl <;> cases operands <;> rfl

/-- Settles O47: the rights are checked on the decoded operation, the selector before that. -/
theorem wrongRequestsAreRefused : Obligations.WrongRequestsAreRefused := by
  refine fun s rest operands => ⟨?push, ?take, ?process, ?selE, ?selF⟩
  case push =>
    intro m hin ht
    rw [step_issue hin (.inr ht), issueOp_wrongAgent (i := .rlyPush m) rfl rfl]
  case take =>
    intro hin
    rw [step_issue hin (.inl rfl), issueOp_wrongAgent (i := .rlyTake) rfl rfl]
  case process =>
    intro wb hin
    rw [step_issue hin (.inl rfl), issueOp_wrongAgent (i := .cmdProcess wb) rfl rfl]
  case selE =>
    intro a hin ha
    rw [step_issue hin ha, issueOp_noOperation (decodeOp_noOperation (.inl rfl) operands)]
  case selF =>
    intro a hin ha
    rw [step_issue hin ha, issueOp_noOperation (decodeOp_noOperation (.inr rfl) operands)]

/-- Settles O52: the reset of ENV waits for nothing, and its fields are those of `hardReset`. -/
theorem hardResetSetsAllState : Obligations.HardResetSetsAllState := fun s rest hin =>
  ⟨State.hardReset { s with inputs := rest }, step_cons hin (.inr rfl), rfl, rfl, rfl, rfl, rfl, rfl, rfl,
    rfl, rfl, rfl⟩

/-- RLY.TAKE in one equation: an empty slot has nothing to empty. -/
theorem exec_rlyTake_eq (s : State) :
    exec .rlyTake s = .next (s.emptySlot.record
      (.taken (if s.slotState = .full then some s.slotMsg else none))) := by
  by_cases h : s.slotState = .full
  · rw [exec_rlyTake_full h, if_pos h]
  · have he := slotState_eq_empty h
    rw [exec_rlyTake_empty he, if_neg h, emptySlot_of_empty he]

/-- Settles O51: the draw picks one of the two serial orders, and each is computed. -/
theorem coincidenceIsASerialOrder : Obligations.CoincidenceIsASerialOrder := by
  intro s m rest ht hin
  rw [step_cons hin (.inl ht), runInput, coincide_eq]
  split
  case isTrue =>
    exact ⟨_, rfl, rfl, sameDevice_refl s, rfl, ht, .inr ⟨rfl, rfl⟩⟩
  case isFalse =>
    rw [runOps_pair, exec_rlyTake_eq, andThen_next, exec_rlyPush]
    exact ⟨_, rfl, rfl, sameDevice_refl s, rfl, ht, .inl ⟨rfl, rfl, rfl⟩⟩

/-! #### Frames that land between M's operations (rules R265, R266) -/

/-- What the external capabilities received is the same. -/
def SameOutputs (s t : State) : Prop :=
  t.usbControlOut = s.usbControlOut ∧ t.usbCanOut = s.usbCanOut ∧ t.canOut = s.canOut

theorem sameOutputs_refl (s : State) : SameOutputs s s := ⟨rfl, rfl, rfl⟩

theorem sameBlock_refl (s : State) : SameBlock s s := ⟨sameRelay_refl s, sameDevice_refl s⟩

theorem SameRelay.trans {s t u : State} (h : SameRelay s t) (h' : SameRelay t u) : SameRelay s u := by
  obtain ⟨hslot, hmsg, hts⟩ := h
  obtain ⟨hslot', hmsg', hts'⟩ := h'
  exact ⟨hslot'.trans hslot, hmsg'.trans hmsg, hts'.trans hts⟩

theorem SameDevice.trans {s t u : State} (h : SameDevice s t) (h' : SameDevice t u) :
    SameDevice s u := by
  obtain ⟨hstatus, hcounter⟩ := h
  obtain ⟨hstatus', hcounter'⟩ := h'
  exact ⟨hstatus'.trans hstatus, hcounter'.trans hcounter⟩

theorem SameOutputs.trans {s t u : State} (h : SameOutputs s t) (h' : SameOutputs t u) :
    SameOutputs s u := by
  obtain ⟨hcontrol, hcan, hframes⟩ := h
  obtain ⟨hcontrol', hcan', hframes'⟩ := h'
  exact ⟨hcontrol'.trans hcontrol, hcan'.trans hcan, hframes'.trans hframes⟩

/-- What M finds after the frames `fs` arrived: the counter stepped once for each, the slot full if there
was one, `DeviceState` and the outputs as they were. -/
structure AfterArrivals (fs : List HwFrame) (s t : State) : Prop where
  tsCtr : t.tsCtr = s.tsCtr + BitVec.ofNat 32 fs.length
  device : SameDevice s t
  outputs : SameOutputs s t
  relay : fs = [] → SameRelay s t
  full : fs ≠ [] → t.slotState = .full

/-- An operation that writes neither the block nor the outputs is as good as no arrival. -/
theorem afterArrivals_nil {s t : State} (hblock : SameBlock s t) (houtputs : SameOutputs s t) :
    AfterArrivals [] s t := by
  obtain ⟨⟨hslot, hmsg, hts⟩, hdevice⟩ := hblock
  exact ⟨hts.trans (BitVec.add_zero _).symm, hdevice, houtputs, fun _ => ⟨hslot, hmsg, hts⟩,
    fun h => absurd rfl h⟩

theorem AfterArrivals.trans {fs gs : List HwFrame} {s t u : State} (h : AfterArrivals fs s t)
    (h' : AfterArrivals gs t u) : AfterArrivals (fs ++ gs) s u where
  tsCtr := by rw [h'.tsCtr, h.tsCtr, List.length_append, BitVec.ofNat_add, BitVec.add_assoc]
  device := h.device.trans h'.device
  outputs := h.outputs.trans h'.outputs
  relay := fun hnil => by
    obtain ⟨hfs, hgs⟩ := List.append_eq_nil_iff.mp hnil
    exact (h.relay hfs).trans (h'.relay hgs)
  full := fun hne => by
    by_cases hgs : gs = []
    · obtain ⟨hslot, -, -⟩ := h'.relay hgs
      rw [hslot]
      exact h.full fun hfs => hne (by rw [hfs, hgs]; rfl)
    · exact h'.full hgs

theorem AfterArrivals.of_same {fs : List HwFrame} {s t u : State} (h : AfterArrivals fs s t)
    (hblock : SameBlock t u) (houtputs : SameOutputs t u) : AfterArrivals fs s u := by
  simpa using h.trans (afterArrivals_nil hblock houtputs)

/-- The state a frame arrival leaves. -/
def State.arrive (f : HwFrame) (s : State) : State :=
  (((s.record (.received (rxFrame f))).fillSlot { rxFrame f with timestamp := s.tsCtr }).countFrame).record
    .done

theorem afterArrivals_arrive (f : HwFrame) (s : State) (rest : List Input) :
    AfterArrivals [f] s (State.arrive f { s with inputs := rest }) where
  tsCtr := rfl
  device := sameDevice_refl s
  outputs := sameOutputs_refl s
  relay := fun h => by cases h
  full := fun _ => rfl

/-- A frame arrival runs in its step, whatever task M has. -/
theorem step_frameArrival {s : State} {f : HwFrame} {rest : List Input}
    (h : s.inputs = .frameArrival f :: rest) :
    step s = .next (State.arrive f { s with inputs := rest }) :=
  (step_cons h (.inr rfl)).trans (frameArrives_eq f _)

/-- Any number of arrivals complete in as many steps. -/
theorem runSteps_landing {fs : List HwFrame} {s : State} {rest : List Input}
    (h : s.inputs = landing fs rest) :
    ∃ t, runSteps fs.length s = .next t ∧ t.inputs = rest ∧ t.task = s.task ∧ t.draws = s.draws ∧
      AfterArrivals fs s t := by
  induction fs generalizing s with
  | nil => exact ⟨s, rfl, h, rfl, rfl, afterArrivals_nil (sameBlock_refl s) (sameOutputs_refl s)⟩
  | cons f fs ih =>
    rw [landing_cons] at h
    obtain ⟨t, ht, hin, htask, hdraws, hafter⟩ :=
      ih (s := State.arrive f { s with inputs := landing fs rest }) rfl
    refine ⟨t, ?_, hin, htask, hdraws, (afterArrivals_arrive f s _).trans hafter⟩
    rw [List.length_cons, runSteps, step_frameArrival h, andThen_next, ht]

theorem landing_append (fs gs : List HwFrame) (rest : List Input) :
    landing (fs ++ gs) rest = landing fs (landing gs rest) := by
  simp [landing]

/-- Settles O46: an arrival is RX_FRAME and the push of its result in one step; the last of several
stamps and fills the slot after the others have counted. -/
theorem producerIsServedAtOnce : Obligations.ProducerIsServedAtOnce := by
  refine ⟨fun s f rest hin => ⟨rxFrame f, exec_canRxFrame f s, step_cons hin (.inr rfl)⟩, ?_⟩
  intro s fs f rest hin
  rw [landing_append, landing_cons, landing_nil] at hin
  obtain ⟨t, ht, hint, htask, hdraws, hafter⟩ := runSteps_landing hin
  have hall := hafter.trans (afterArrivals_arrive f t rest)
  obtain ⟨hcontrol, hcan, hframes⟩ := hall.outputs
  refine ⟨State.arrive f { t with inputs := rest }, ?_, rfl, htask, rfl, ?_, ?_, hall.device, hdraws,
    hcontrol, hcan, hframes⟩
  · rw [runSteps_add, ht, andThen_next, runSteps_one, step_frameArrival hint]
  · rw [hall.tsCtr, List.length_append]; rfl
  · show { rxFrame f with timestamp := t.tsCtr } = _
    rw [hafter.tsCtr]

/-! #### The three contracts of M (rules R286 to R288) -/

/-- Frames land, and then M does its next operation. -/
theorem runSteps_landing_mainline {fs : List HwFrame} {s : State} {k : BridgeTask} {rest : List Input}
    (hk : s.task = some k) (h : s.inputs = landing fs (.mainline :: rest)) :
    ∃ u, runSteps (fs.length + 1) s = runTask k u ∧ u.inputs = rest ∧ u.task = none ∧
      u.draws = s.draws ∧ AfterArrivals fs s u := by
  obtain ⟨t, ht, hin, htask, hdraws, hafter⟩ := runSteps_landing h
  refine ⟨{ t with inputs := rest, task := none }, ?_, rfl, rfl, hdraws,
    hafter.of_same (sameBlock_refl t) (sameOutputs_refl t)⟩
  rw [runSteps_add, ht, andThen_next, runSteps_one, step_cons hin (.inr rfl)]
  exact runMainline_some (s := { t with inputs := rest }) (htask.trans hk)

/-- The second and third operation of a contract, with frames landing before each: the second, `k`,
writes neither the block nor the outputs and makes `k'` the third. -/
theorem runSteps_contract {fs gs : List HwFrame} {s : State} {k k' : BridgeTask} {rest : List Input}
    (hk : s.task = some k)
    (h : s.inputs = landing fs (.mainline :: landing gs (.mainline :: rest)))
    (hop : ∀ u, u.draws = s.draws → ∃ v, runTask k u = .next (v.setTask (some k')) ∧
      v.inputs = u.inputs ∧ SameBlock u v ∧ SameOutputs u v) :
    ∃ w, runSteps (2 + (fs.length + gs.length)) s = runTask k' w ∧ w.inputs = rest ∧ w.task = none ∧
      AfterArrivals (fs ++ gs) s w := by
  obtain ⟨u, hu, huin, -, hudraws, huafter⟩ := runSteps_landing_mainline hk h
  obtain ⟨v, hv, hvin, hblock, houtputs⟩ := hop u hudraws
  obtain ⟨w, hw, hwin, hwtask, -, hwafter⟩ :=
    runSteps_landing_mainline (s := v.setTask (some k')) (k := k') rfl (hvin.trans huin)
  refine ⟨w, ?_, hwin, hwtask, ?_⟩
  · rw [show 2 + (fs.length + gs.length) = fs.length + 1 + (gs.length + 1) by omega, runSteps_add, hu, hv,
      andThen_next, hw]
  · exact (huafter.of_same (u := v.setTask (some k')) hblock houtputs).trans hwafter

theorem draw_congr {s t : State} (h : t.draws = s.draws) : t.draw = s.draw := by
  funext off
  rw [State.draw_eq, State.draw_eq, h]

/-- From the response on (rule R286): PKT.ENCODE with the draw that stands at its turn, then the write. -/
theorem runSteps_encodeResponse {fs gs : List HwFrame} {s : State} {r : Packet} {rest : List Input}
    (hr : r.dataLength.toNat ≤ 60) (hk : s.task = some (.encodeResponse r))
    (h : s.inputs = landing fs (.mainline :: landing gs (.mainline :: rest))) :
    ∃ w, runSteps (2 + (fs.length + gs.length)) s = .next (w.writeControl (encodePacket 64 s.draw r)) ∧
      w.inputs = rest ∧ w.task = none ∧ AfterArrivals (fs ++ gs) s w := by
  refine runSteps_contract (k' := .writeControl (encodePacket 64 s.draw r)) hk h fun u hu => ?_
  refine ⟨u.drawn.record (.wire (encodePacket 64 s.draw r)), ?_, rfl, sameBlock_refl u, sameOutputs_refl u⟩
  rw [runTask_encodeResponse, exec_pktEncode hr, draw_congr hu]
  rfl

/-- From the message taken on (rule R287). -/
theorem runSteps_serialise {fs gs : List HwFrame} {s : State} {m : CanMessage} {rest : List Input}
    (hk : s.task = some (.serialise m))
    (h : s.inputs = landing fs (.mainline :: landing gs (.mainline :: rest))) :
    ∃ w, runSteps (2 + (fs.length + gs.length)) s = .next (w.writeCan (toWire m)) ∧
      w.inputs = rest ∧ w.task = none ∧ AfterArrivals (fs ++ gs) s w :=
  runSteps_contract (k' := .writeCan (toWire m)) hk h fun u _ =>
    ⟨u.record (.record (toWire m)), rfl, rfl, sameBlock_refl u, sameOutputs_refl u⟩

/-- From the message read on (rule R288). -/
theorem runSteps_buildFrame {fs gs : List HwFrame} {s : State} {m : CanMessage} {rest : List Input}
    (hm : m.length.toNat ≤ 8) (hk : s.task = some (.buildFrame m))
    (h : s.inputs = landing fs (.mainline :: landing gs (.mainline :: rest))) :
    ∃ w, runSteps (2 + (fs.length + gs.length)) s = .next (w.sendFrame (txFrame m)) ∧
      w.inputs = rest ∧ w.task = none ∧ AfterArrivals (fs ++ gs) s w := by
  refine runSteps_contract (k' := .sendFrame (txFrame m)) hk h fun u _ => ?_
  refine ⟨u.record (.frame (txFrame m)), ?_, rfl, sameBlock_refl u, sameOutputs_refl u⟩
  rw [runTask_buildFrame, exec_canTxFrame hm]
  rfl

/-- Settles O48: CMD.PROCESS as the frame's row makes the response M's task, and the rest of the contract
encodes and writes it. -/
theorem controlTransferGetsOneResponse : Obligations.ControlTransferGetsOneResponse := by
  intro s wb fs gs rest ht hin
  have hstep : step s = inContract (exec (decodeFrame s.draw wb)
      { s with inputs := s.inputs.tail, draws := s.draws + 1 }) := by
    rw [step_cons hin (.inl ht), hin]
    rfl
  rcases exec_decodeFrame s.draw wb { s with inputs := s.inputs.tail, draws := s.draws + 1 }
    with ⟨v, cid, d, hd, ho, hrelay, houtside, hresults, hdraws⟩ | ⟨hrefused, hecho⟩
  · left
    obtain ⟨hvin, -, hvcontrol, hvcan, hvframes⟩ := houtside
    obtain ⟨w, hw, hwin, hwtask, hafter⟩ :=
      runSteps_encodeResponse (s := (v.record (.packet (buildResponse cid d))).setTask
        (some (.encodeResponse (buildResponse cid d)))) ((buildResponse_length hd).trans_le hd) rfl
        (hvin.trans (congrArg List.tail hin))
    obtain ⟨hwcontrol, hwcan, hwframes⟩ := hafter.outputs
    refine ⟨w.writeControl _, _, buildResponse cid d, ho, congrArg _ hresults, ?run, hwin, hwtask,
      congrArg _ (hwcontrol.trans hvcontrol), hafter.device, ?ts, fun hnil => ?relay,
      hwcan.trans hvcan, hwframes.trans hvframes⟩
    case run =>
      rw [show 3 + (fs.length + gs.length) = 1 + (2 + (fs.length + gs.length)) by omega, runSteps_add,
        runSteps_one, hstep, ho, inContract_next, andThen_next]
      exact hw
    case ts =>
      rw [State.writeControl_tsCtr, hafter.tsCtr, List.length_append]
      obtain ⟨-, -, hts⟩ := hrelay
      exact congrArg (· + _) hts
    case relay =>
      exact hrelay.trans (hafter.relay hnil)
  · right
    rw [hstep, hrefused]
    exact ⟨rfl, hecho⟩

theorem step_relayPoll_full {s : State} {rest : List Input} (ht : s.task = none)
    (hin : s.inputs = .relayPoll :: rest) (hfull : s.slotState = .full) :
    step s = .next ((State.emptySlot { s with inputs := rest } |>.record (.taken (some s.slotMsg))).setTask
      (some (.serialise s.slotMsg))) := by
  rw [step_cons hin (.inl ht), runInput, pollRelay_eq,
    exec_rlyTake_full (s := { s with inputs := rest }) hfull, inContract_next]
  rfl

theorem step_relayPoll_empty {s : State} {rest : List Input} (ht : s.task = none)
    (hin : s.inputs = .relayPoll :: rest) (hempty : s.slotState = .empty) :
    step s = .next (State.record (.taken none) { s with inputs := rest }) := by
  rw [step_cons hin (.inl ht), runInput, pollRelay_eq,
    exec_rlyTake_empty (s := { s with inputs := rest }) hempty, inContract_next]
  exact congrArg _ (setTask_eq_self ht)

/-- What the poll takes after a frame arrived. -/
def stamped (f : HwFrame) (s : State) : CanMessage := { rxFrame f with timestamp := s.tsCtr }

/-- The state in which M has taken the message of the frame that arrived. -/
def State.arriveAndPoll (f : HwFrame) (rest : List Input) (s : State) : State :=
  ((State.arrive f { s with inputs := rest }).emptySlot.record (.taken (some (stamped f s)))).setTask
    (some (.serialise (stamped f s)))

theorem runSteps_arriveAndPoll {s : State} {f : HwFrame} {rest : List Input} (ht : s.task = none)
    (hin : s.inputs = .frameArrival f :: .relayPoll :: rest) :
    runSteps 2 s = .next (s.arriveAndPoll f rest) := by
  rw [runSteps_add 1 1, runSteps_one, step_frameArrival hin, andThen_next, runSteps_one]
  exact step_relayPoll_full (s := State.arrive f { s with inputs := .relayPoll :: rest }) ht rfl rfl

/-- The record of a frame's message, byte by byte (rule R230). -/
theorem record_of_stamped (f : HwFrame) (s : State) :
    (toWire (stamped f s)).length = 18 ∧ (toWire (stamped f s)).take 4 = le32 s.tsCtr ∧
    ((toWire (stamped f s)).drop 4).take 4 = le32 (idDecode f.idField f.ide) ∧
    (∀ i (h : i < 8), (toWire (stamped f s))[8 + i]?
      = some (if i < f.dlc.toNat then f.data[i] else 0#8)) ∧
    (toWire (stamped f s))[16]? = some f.dlc ∧
    (toWire (stamped f s))[17]? = some (if f.ide then 1#8 else 0#8) :=
  ⟨length_toWire _, rfl, rfl, fun _ h => getElem?_toWire_data (stamped f s) h,
    getElem?_toWire_length _, getElem?_toWire_properties _⟩

/-- Settles O49: the arrival fills the slot, the poll takes its message, and the rest of the contract
serialises and writes it; the poll of an empty slot makes no task. -/
theorem busToHost : Obligations.BusToHost := by
  refine ⟨fun s f fs gs rest ht hin => ?transfer, fun s rest ht hin hempty =>
    step_relayPoll_empty ht hin hempty⟩
  obtain ⟨w, hw, hwin, hwtask, hafter⟩ :=
    runSteps_serialise (fs := fs) (gs := gs) (rest := rest) (m := stamped f s)
      (s := s.arriveAndPoll f (landing fs (.mainline :: landing gs (.mainline :: rest)))) rfl rfl
  obtain ⟨hcontrol, hcan, hframes⟩ := hafter.outputs
  obtain ⟨hlength, hstamp, hid, hdata, hdlc, hide⟩ := record_of_stamped f s
  refine ⟨w.writeCan (toWire (stamped f s)), toWire (stamped f s), ?run, hwin, hwtask,
    congrArg _ hcan, ?slot, ?ts, hlength, hstamp, hid, hdata, hdlc, hide, hafter.device, hframes,
    hcontrol⟩
  case run =>
    rw [show 4 + (fs.length + gs.length) = 2 + (2 + (fs.length + gs.length)) by omega, runSteps_add,
      runSteps_arriveAndPoll ht hin, andThen_next, hw]
  case slot =>
    split
    case isTrue hnil =>
      obtain ⟨hslot, -, -⟩ := hafter.relay hnil
      exact hslot
    case isFalse hne => exact hafter.full hne
  case ts =>
    rw [State.writeCan_tsCtr, hafter.tsCtr, List.length_append]
    rfl

/-- The state in which M has read a message from a CAN buffer and is to build its frame. -/
def State.acceptRecord (b : List Byte) (rest : List Input) (s : State) : State :=
  (State.record (.parsed (some (readRecord s.draw b)))
    { s with inputs := rest, draws := s.draws + 1 }).setTask (some (.buildFrame (readRecord s.draw b)))

theorem step_canIn_long {s : State} {b : List Byte} {rest : List Input} (ht : s.task = none)
    (hin : s.inputs = .canIn b :: rest) (hb : 18 ≤ b.length) :
    step s = .next (s.acceptRecord b rest) := by
  rw [step_cons hin (.inl ht), runInput, canTransfer_eq, exec_canFromWire, fromWire_some _ b hb,
    inContract_next]
  rfl

theorem step_canIn_short {s : State} {b : List Byte} {rest : List Input} (ht : s.task = none)
    (hin : s.inputs = .canIn b :: rest) (hb : b.length < 18) :
    step s = .next (State.record (.parsed none) { s with inputs := rest, draws := s.draws + 1 }) := by
  rw [step_cons hin (.inl ht), runInput, canTransfer_eq, exec_canFromWire, fromWire_none _ hb,
    inContract_next]
  exact congrArg _ (setTask_eq_self ht)

/-- The frame made of a record depends on bytes 4 to 16 only (rule R288). -/
theorem txFrame_readRecord_congr {d1 d2 : Nat → Byte} {b b' : List Byte} (hb : 18 ≤ b.length)
    (h : ∀ off, 4 ≤ off → off < 17 → b'[off]? = b[off]?) :
    txFrame (readRecord d1 b') = txFrame (readRecord d2 b) := by
  have byte (off : Nat) (h4 : 4 ≤ off) (h17 : off < 17) : byteAt d1 b' off = byteAt d2 b off := by
    rw [byteAt_of_lt d2 (by omega)]
    exact byteAt_of_getElem?_eq_some ((h off h4 h17).trans (List.getElem?_eq_getElem (by omega)))
  have id : (readRecord d1 b').id = (readRecord d2 b).id := by
    simp only [readRecord, byte 4 (by omega) (by omega), byte 5 (by omega) (by omega),
      byte 6 (by omega) (by omega), byte 7 (by omega) (by omega)]
  have length : (readRecord d1 b').length = (readRecord d2 b).length := byte 16 (by omega) (by omega)
  have data : (readRecord d1 b').data = (readRecord d2 b).data := by
    ext i hi : 1
    rw [readRecord_data _ _ hi, readRecord_data _ _ hi, byte (8 + i) (by omega) (by omega)]
  rw [txFrame, id, length, data, txFrame]

theorem fromWire_eq_some {draw : Nat → Byte} {b : List Byte} {len : Nat} {m : CanMessage}
    (h : fromWire draw b len = some m) : m = readRecord draw b := by
  rcases Nat.lt_or_ge len 18 with hlen | hlen
  · rw [fromWire_none draw hlen] at h
    cases h
  · rw [fromWire_some draw b hlen] at h
    exact (Option.some.inj h).symm

/-- Settles O50: an accepted buffer makes a frame M's task, which is built and sent or refused by the
length byte; a short one makes none. -/
theorem hostToBus : Obligations.HostToBus := by
  intro s b fs gs rest ht hin
  refine ⟨fun hb => ?short, fun hb => ⟨readRecord s.draw b, fromWire_some _ b hb, ?lengthByte,
    fun hm => ?sent, fun hm => ?refused, fun draw b' m' hm' hbytes => ?congr⟩⟩
  case short =>
    rw [step_canIn_short ht hin hb, hin]
    rfl
  case lengthByte =>
    rw [List.getD_eq_getElem _ _ (by omega)]
    exact byteAt_of_lt s.draw (by omega)
  case sent =>
    obtain ⟨w, hw, hwin, hwtask, hafter⟩ :=
      runSteps_buildFrame (fs := fs) (gs := gs) (rest := rest)
        (s := s.acceptRecord b (landing fs (.mainline :: landing gs (.mainline :: rest)))) hm rfl rfl
    obtain ⟨hcontrol, hcan, hframes⟩ := hafter.outputs
    refine ⟨w.sendFrame (txFrame (readRecord s.draw b)), ?_, congrArg _ hframes, hwin, hwtask,
      hafter.device, ?_, hafter.relay, hcontrol, hcan⟩
    · rw [show 3 + (fs.length + gs.length) = 1 + (2 + (fs.length + gs.length)) by omega, runSteps_add,
        runSteps_one, step_canIn_long ht hin hb, andThen_next, hw]
    · rw [State.sendFrame_tsCtr, hafter.tsCtr, List.length_append]
      rfl
  case refused =>
    obtain ⟨u, hu, -⟩ :=
      runSteps_landing_mainline (fs := fs) (rest := landing gs (.mainline :: rest))
        (s := s.acceptRecord b (landing fs (.mainline :: landing gs (.mainline :: rest)))) rfl rfl
    rw [show 2 + fs.length = 1 + (fs.length + 1) by omega, runSteps_add, runSteps_one,
      step_canIn_long ht hin hb, andThen_next, hu, runTask_buildFrame, exec_canTxFrame_oversized hm,
      inContract_refused]
  case congr =>
    rw [fromWire_eq_some hm']
    exact txFrame_readRecord_congr hb hbytes

end Sys2Proof.Machine
